-- ==== Sys2Proof/Word.lean ====
section
/-! DEFINITION. The words of the block and the constants of its two unsigned fraction formats
(00_scope.md R7, R10). Registers and operands are bit vectors; arithmetic is exact, over `Nat` and
`Int`, and narrowed where a result is stored (R8). On `Int` and `Nat` the sign `/` with a positive
divisor is the mathematical floor of R8. -/

namespace Sys2Proof

/-- A 32-bit word: a register, an operand, a response (R7, R90). -/
abbrev Word := BitVec 32

/-- A 16-bit field: `arg16`, a note identifier, a UQ1.15 value (R7, R90). -/
abbrev Half := BitVec 16

/-- An 8-bit field: `opcode`, `sel` (R90). -/
abbrev Octet := BitVec 8

/-- `ONE15`, 1.0 in UQ1.15 (R7). -/
abbrev one15 : Nat := 0x8000

/-- `ONE31`, 1.0 in UQ1.31 (R7). -/
abbrev one31 : Nat := 0x80000000

end Sys2Proof
end

