-- ==== Sys2Proof/Syntax.lean ====
section
/-! DEFINITION. The command word, the ports, and the 37 commands of 30_encoding.md R93, one constructor
per row of the opcode table. A command keeps the operand words it reads. The five event commands keep
all three operand words, read or not, because the event queue holds whole command words
(48_engine_system.md R228). -/

namespace Sys2Proof

/-- The two command ports (20_memory.md R70). -/
inductive Port where
  | render
  | control
  deriving DecidableEq, Repr

/-- A command as a port presents it: four 32-bit words, W0 first (30_encoding.md R90). -/
structure Command where
  w0 : Word
  w1 : Word
  w2 : Word
  w3 : Word
  deriving DecidableEq, Repr

/-- The five event kinds (R93, opcodes 0x20 to 0x24). -/
inductive EventKind where
  | noteOn
  | noteOff
  | pressure
  | pitch
  | timbre
  deriving DecidableEq, Repr

/-- An event command word (10_state.md R38): its kind is the opcode, `sel` is 0, and the remaining 112
bits are kept as they are. -/
structure Event where
  kind : EventKind
  id : Half
  a : Word
  b : Word
  c : Word
  deriving DecidableEq, Repr

/-- The commands of the block (R93). Operand names are those of the assembler (R98). -/
inductive Instr where
  /-- `NOP` (R220). -/
  | nop
  /-- `PREPARE fs, mb, poly` (R221). -/
  | prepare (fs mb poly : Word)
  /-- `RENDER nch, ns` (R222). -/
  | render (nch ns : Word)
  /-- `WRCFG i, x` (R226). -/
  | wrcfg (i : Half) (x : Word)
  /-- `RDREG sel, reg` (R229). -/
  | rdreg (sel : Octet) (reg : Half)
  /-- `SETGLOBAL i, x` (R227). -/
  | setglobal (i : Half) (x : Word)
  /-- `EV.NOTEON id, f, p, tb` (R206). -/
  | evNoteon (id : Half) (f p tb : Word)
  /-- `EV.NOTEOFF id` (R207); `a`, `b`, `c` are the ignored operand words. -/
  | evNoteoff (id : Half) (a b c : Word)
  /-- `EV.PRESSURE id, x` (R208); `b`, `c` are ignored. -/
  | evPressure (id : Half) (x b c : Word)
  /-- `EV.PITCH id, f` (R209); `b`, `c` are ignored. -/
  | evPitch (id : Half) (f b c : Word)
  /-- `EV.TIMBRE id, x` (R210); `b`, `c` are ignored. -/
  | evTimbre (id : Half) (x b c : Word)
  /-- `WT.READ t, i` (R125). -/
  | wtRead (t : Octet) (i : Half)
  /-- `OSC.SETFREQ v, o, f, fs` (R131). -/
  | oscSetfreq (v : Octet) (o : Half) (f fs : Word)
  /-- `OSC.NEXT v, o` (R132). -/
  | oscNext (v : Octet) (o : Half)
  /-- `OSC.RESET v, o` (R133). -/
  | oscReset (v : Octet) (o : Half)
  /-- `ENV.NOTEON v` (R141). -/
  | envNoteon (v : Octet)
  /-- `ENV.NOTEOFF v` (R142). -/
  | envNoteoff (v : Octet)
  /-- `ENV.NEXT v` (R143). -/
  | envNext (v : Octet)
  /-- `ENV.ISACTIVE v` (R144). -/
  | envIsactive (v : Octet)
  /-- `ENV.LOADP` (R140). -/
  | envLoadp
  /-- `RMP.SETTARGET sel, r, x` (R157). -/
  | rmpSettarget (sel : Octet) (r : Half) (x : Word)
  /-- `RMP.RESET sel, r, fs, T` (R156). -/
  | rmpReset (sel : Octet) (r : Half) (fs time : Word)
  /-- `RMP.NEXT sel, r` (R158). -/
  | rmpNext (sel : Octet) (r : Half)
  /-- `RMP.GETCUR sel, r` (R159). -/
  | rmpGetcur (sel : Octet) (r : Half)
  /-- `FLT.COEF cutoff, fs` (R171). -/
  | fltCoef (cutoff fs : Word)
  /-- `FLT.NEXT v, x` (R172). -/
  | fltNext (v : Octet) (x : Word)
  /-- `FLT.CLEAR v` (R173). -/
  | fltClear (v : Octet)
  /-- `V.ASSIGN v, id, f, p, tb` (R181). -/
  | vAssign (v : Octet) (id : Half) (f p tb : Word)
  /-- `V.PRESSURE v, x` (R182). -/
  | vPressure (v : Octet) (x : Word)
  /-- `V.PITCH v, f` (R183). -/
  | vPitch (v : Octet) (f : Word)
  /-- `V.TIMBRE v, x` (R184). -/
  | vTimbre (v : Octet) (x : Word)
  /-- `V.RELEASE v` (R185). -/
  | vRelease (v : Octet)
  /-- `V.RENDER v, start, ns` (R187). -/
  | vRender (v : Octet) (start ns : Word)
  /-- `MIX.CLEAR nch, ns` (R196). -/
  | mixClear (nch ns : Word)
  /-- `MIX.ACC i, x` (R197). -/
  | mixAcc (i : Half) (x : Word)
  /-- `MIX.READ c, i` (R198). -/
  | mixRead (c : Octet) (i : Half)
  /-- `MIX.READSAT c, i` (R199). -/
  | mixReadsat (c : Octet) (i : Half)
  deriving DecidableEq, Repr

end Sys2Proof
end

