-- ==== Sys2Proof/WellFormed.lean ====
section
/-! DEFINITION. When a command is well formed for the port that presents it (30_encoding.md R94 step 2,
R96; 60_exceptions.md R257). Field widths are carried by the fields' types; what is left to check is
the port column of R93 and, on the control port, the store index. A command that decodes and is not
well formed for its port is illegal there: `F_ILLEGAL_CMD` on the render port, `CTL_ILLEGAL` on the
control port. -/

namespace Sys2Proof

/-- The port column of R93, in its order. -/
def Instr.ports : Instr → List Port
  | .setglobal _ _ => [.control]
  | .evNoteon _ _ _ _ | .evNoteoff _ _ _ _ | .evPressure _ _ _ _ | .evPitch _ _ _ _
  | .evTimbre _ _ _ _ => [.control, .render]
  | .nop | .prepare _ _ _ | .render _ _ | .wrcfg _ _ | .rdreg _ _ | .wtRead _ _
  | .oscSetfreq _ _ _ _ | .oscNext _ _ | .oscReset _ _
  | .envNoteon _ | .envNoteoff _ | .envNext _ | .envIsactive _ | .envLoadp
  | .rmpSettarget _ _ _ | .rmpReset _ _ _ _ | .rmpNext _ _ | .rmpGetcur _ _
  | .fltCoef _ _ | .fltNext _ _ | .fltClear _
  | .vAssign _ _ _ _ _ | .vPressure _ _ | .vPitch _ _ | .vTimbre _ _ | .vRelease _
  | .vRender _ _ _
  | .mixClear _ _ | .mixAcc _ _ | .mixRead _ _ | .mixReadsat _ _ => [.render]

/-- The store index of `SETGLOBAL` is 0 to 6 (R96). -/
def Instr.storeIndexOk : Instr → Bool
  | .setglobal i _ => i.toNat ≤ 6
  | _ => true

/-- Command `i` is one that port `p` may execute. -/
def WellFormed (p : Port) (i : Instr) : Bool :=
  i.ports.contains p && i.storeIndexOk

end Sys2Proof
end

