-- ==== Sys2Proof/Decode.lean ====
section
/-! DEFINITION. Decoding of a command word by opcode and format (30_encoding.md R90, R91, R93), total on
any 128 bits; then the encoder, written from the same table. The decoder is the same for both ports;
which port may execute what it gives is `WellFormed`'s. -/

namespace Sys2Proof

/-- `W0[31:24]` (R90). -/
def Command.opcode (w : Command) : Octet := w.w0.extractLsb' 24 8

/-- `W0[23:16]` (R90). -/
def Command.sel (w : Command) : Octet := w.w0.extractLsb' 16 8

/-- `W0[15:0]` (R90). -/
def Command.arg16 (w : Command) : Half := w.w0.extractLsb' 0 16

/-- Format Z: no W0 field but the opcode is used, so the others must be zero (R91). -/
def formatZ (w : Command) (i : Instr) : Option Instr :=
  if w.sel = 0 ∧ w.arg16 = 0 then some i else none

/-- Format S: `sel` is used, `arg16` must be zero (R91). -/
def formatS (w : Command) (i : Octet → Instr) : Option Instr :=
  if w.arg16 = 0 then some (i w.sel) else none

/-- Format A: `arg16` is used, `sel` must be zero (R91). -/
def formatA (w : Command) (i : Half → Instr) : Option Instr :=
  if w.sel = 0 then some (i w.arg16) else none

/-- Format SA: `sel` and `arg16` are used (R91). -/
def formatSA (w : Command) (i : Octet → Half → Instr) : Option Instr :=
  some (i w.sel w.arg16)

/-- The command a word selects (R93); `none` for a reserved opcode or a non-zero unused W0 field (R95).
Operand words a command does not use are ignored (R91), except that an event keeps them. -/
def decode (w : Command) : Option Instr :=
  match w.opcode with
  | 0x00#8 => formatZ w .nop
  | 0x01#8 => formatZ w (.prepare w.w1 w.w2 w.w3)
  | 0x02#8 => formatZ w (.render w.w1 w.w2)
  | 0x03#8 => formatA w fun i => .wrcfg i w.w1
  | 0x04#8 => formatSA w fun v reg => .rdreg v reg
  | 0x10#8 => formatA w fun i => .setglobal i w.w1
  | 0x20#8 => formatA w fun id => .evNoteon id w.w1 w.w2 w.w3
  | 0x21#8 => formatA w fun id => .evNoteoff id w.w1 w.w2 w.w3
  | 0x22#8 => formatA w fun id => .evPressure id w.w1 w.w2 w.w3
  | 0x23#8 => formatA w fun id => .evPitch id w.w1 w.w2 w.w3
  | 0x24#8 => formatA w fun id => .evTimbre id w.w1 w.w2 w.w3
  | 0x30#8 => formatSA w fun t i => .wtRead t i
  | 0x40#8 => formatSA w fun v o => .oscSetfreq v o w.w1 w.w2
  | 0x41#8 => formatSA w fun v o => .oscNext v o
  | 0x42#8 => formatSA w fun v o => .oscReset v o
  | 0x50#8 => formatS w fun v => .envNoteon v
  | 0x51#8 => formatS w fun v => .envNoteoff v
  | 0x52#8 => formatS w fun v => .envNext v
  | 0x53#8 => formatS w fun v => .envIsactive v
  | 0x54#8 => formatZ w .envLoadp
  | 0x60#8 => formatSA w fun v r => .rmpSettarget v r w.w1
  | 0x61#8 => formatSA w fun v r => .rmpReset v r w.w1 w.w2
  | 0x62#8 => formatSA w fun v r => .rmpNext v r
  | 0x63#8 => formatSA w fun v r => .rmpGetcur v r
  | 0x70#8 => formatZ w (.fltCoef w.w1 w.w2)
  | 0x71#8 => formatS w fun v => .fltNext v w.w1
  | 0x72#8 => formatS w fun v => .fltClear v
  | 0x80#8 => formatSA w fun v id => .vAssign v id w.w1 w.w2 w.w3
  | 0x81#8 => formatS w fun v => .vPressure v w.w1
  | 0x82#8 => formatS w fun v => .vPitch v w.w1
  | 0x83#8 => formatS w fun v => .vTimbre v w.w1
  | 0x84#8 => formatS w fun v => .vRelease v
  | 0x85#8 => formatS w fun v => .vRender v w.w1 w.w2
  | 0x90#8 => formatZ w (.mixClear w.w1 w.w2)
  | 0x91#8 => formatA w fun i => .mixAcc i w.w1
  | 0x92#8 => formatSA w fun c i => .mixRead c i
  | 0x93#8 => formatSA w fun c i => .mixReadsat c i
  | _ => none

/-- W0 from its three fields: `opcode << 24 | sel << 16 | arg16` (R98). -/
def packW0 (op sel : Octet) (arg16 : Half) : Word := op ++ sel ++ arg16

/-- The four words of a command (R90, R93, R98); operand words it does not use are zero. -/
def encode : Instr → Command
  | .nop => ⟨packW0 0x00 0 0, 0, 0, 0⟩
  | .prepare fs mb poly => ⟨packW0 0x01 0 0, fs, mb, poly⟩
  | .render nch ns => ⟨packW0 0x02 0 0, nch, ns, 0⟩
  | .wrcfg i x => ⟨packW0 0x03 0 i, x, 0, 0⟩
  | .rdreg v reg => ⟨packW0 0x04 v reg, 0, 0, 0⟩
  | .setglobal i x => ⟨packW0 0x10 0 i, x, 0, 0⟩
  | .evNoteon id f p tb => ⟨packW0 0x20 0 id, f, p, tb⟩
  | .evNoteoff id a b c => ⟨packW0 0x21 0 id, a, b, c⟩
  | .evPressure id x b c => ⟨packW0 0x22 0 id, x, b, c⟩
  | .evPitch id f b c => ⟨packW0 0x23 0 id, f, b, c⟩
  | .evTimbre id x b c => ⟨packW0 0x24 0 id, x, b, c⟩
  | .wtRead t i => ⟨packW0 0x30 t i, 0, 0, 0⟩
  | .oscSetfreq v o f fs => ⟨packW0 0x40 v o, f, fs, 0⟩
  | .oscNext v o => ⟨packW0 0x41 v o, 0, 0, 0⟩
  | .oscReset v o => ⟨packW0 0x42 v o, 0, 0, 0⟩
  | .envNoteon v => ⟨packW0 0x50 v 0, 0, 0, 0⟩
  | .envNoteoff v => ⟨packW0 0x51 v 0, 0, 0, 0⟩
  | .envNext v => ⟨packW0 0x52 v 0, 0, 0, 0⟩
  | .envIsactive v => ⟨packW0 0x53 v 0, 0, 0, 0⟩
  | .envLoadp => ⟨packW0 0x54 0 0, 0, 0, 0⟩
  | .rmpSettarget v r x => ⟨packW0 0x60 v r, x, 0, 0⟩
  | .rmpReset v r fs time => ⟨packW0 0x61 v r, fs, time, 0⟩
  | .rmpNext v r => ⟨packW0 0x62 v r, 0, 0, 0⟩
  | .rmpGetcur v r => ⟨packW0 0x63 v r, 0, 0, 0⟩
  | .fltCoef cutoff fs => ⟨packW0 0x70 0 0, cutoff, fs, 0⟩
  | .fltNext v x => ⟨packW0 0x71 v 0, x, 0, 0⟩
  | .fltClear v => ⟨packW0 0x72 v 0, 0, 0, 0⟩
  | .vAssign v id f p tb => ⟨packW0 0x80 v id, f, p, tb⟩
  | .vPressure v x => ⟨packW0 0x81 v 0, x, 0, 0⟩
  | .vPitch v f => ⟨packW0 0x82 v 0, f, 0, 0⟩
  | .vTimbre v x => ⟨packW0 0x83 v 0, x, 0, 0⟩
  | .vRelease v => ⟨packW0 0x84 v 0, 0, 0, 0⟩
  | .vRender v start ns => ⟨packW0 0x85 v 0, start, ns, 0⟩
  | .mixClear nch ns => ⟨packW0 0x90 0 0, nch, ns, 0⟩
  | .mixAcc i x => ⟨packW0 0x91 0 i, x, 0, 0⟩
  | .mixRead c i => ⟨packW0 0x92 c i, 0, 0, 0⟩
  | .mixReadsat c i => ⟨packW0 0x93 c i, 0, 0, 0⟩

/-- The event command word a queue entry stands for (10_state.md R38). -/
def Event.toInstr (e : Event) : Instr :=
  match e.kind with
  | .noteOn => .evNoteon e.id e.a e.b e.c
  | .noteOff => .evNoteoff e.id e.a e.b e.c
  | .pressure => .evPressure e.id e.a e.b e.c
  | .pitch => .evPitch e.id e.a e.b e.c
  | .timbre => .evTimbre e.id e.a e.b e.c

/-- The command whose 128 bits are `w`, bit 0 the least significant bit of W0, W1 from bit 32 on, and
so on (R90). -/
def Command.ofNat (w : Nat) : Command where
  w0 := BitVec.ofNat 32 w
  w1 := BitVec.ofNat 32 (w / 2 ^ 32)
  w2 := BitVec.ofNat 32 (w / 2 ^ 64)
  w3 := BitVec.ofNat 32 (w / 2 ^ 96)

/-- A word as a transport outside the block serialises it: least significant byte first (20_memory.md
R65). -/
def wordBytes (w : Word) : List Octet :=
  [w.extractLsb' 0 8, w.extractLsb' 8 8, w.extractLsb' 16 8, w.extractLsb' 24 8]

/-- The byte image of a command, W0 first (R65). -/
def Command.bytes (w : Command) : List Octet :=
  wordBytes w.w0 ++ wordBytes w.w1 ++ wordBytes w.w2 ++ wordBytes w.w3

/-- The command decoded from an instruction whose low `nbits` bits are `w`'s and whose other bits are
zero. -/
def decodeTableWord (nbits w : Nat) : Option Instr :=
  decode (Command.ofNat (w % 2 ^ nbits))

end Sys2Proof
end

