-- ==== Sys2Proof/Config.lean ====
section
/-! DEFINITION. The build parameters of 00_scope.md R5, as one record with its legal ranges and its
defaults. The model takes the record as an argument: the state it runs on carries one, which no step writes
(92_eei_decisions.md D2; log 12). No value of the spec is open at run time (70_reset_and_hazards.md R295), so
there is no free value here. -/

namespace Sys2Proof.Config

/-- Rows 0 to 112 of the sine listing of 40_wavetable.md R123. -/
def sineFirstHalf : List Int :=
  [0, 804, 1608, 2410, 3212, 4011, 4808, 5602, 6393, 7179, 7962, 8739, 9512, 10278, 11039, 11793] ++
  [12539, 13279, 14010, 14732, 15446, 16151, 16846, 17530, 18204, 18868, 19519, 20159, 20787, 21403,
    22005, 22594] ++
  [23170, 23731, 24279, 24811, 25329, 25832, 26319, 26790, 27245, 27683, 28105, 28510, 28898, 29268,
    29621, 29956] ++
  [30273, 30571, 30852, 31113, 31356, 31580, 31785, 31971, 32137, 32285, 32412, 32521, 32609, 32678,
    32728, 32757] ++
  [32767, 32757, 32728, 32678, 32609, 32521, 32412, 32285, 32137, 31971, 31785, 31580, 31356, 31113,
    30852, 30571] ++
  [30273, 29956, 29621, 29268, 28898, 28510, 28105, 27683, 27245, 26790, 26319, 25832, 25329, 24811,
    24279, 23731] ++
  [23170, 22594, 22005, 21403, 20787, 20159, 19519, 18868, 18204, 17530, 16846, 16151, 15446, 14732,
    14010, 13279] ++
  [12539, 11793, 11039, 10278, 9512, 8739, 7962, 7179, 6393, 5602, 4808, 4011, 3212, 2410, 1608, 804]

/-- Rows 128 to 240 of the sine listing of 40_wavetable.md R123. -/
def sineSecondHalf : List Int :=
  [0, -804, -1608, -2410, -3212, -4011, -4808, -5602, -6393, -7179, -7962, -8739, -9512, -10278,
    -11039, -11793] ++
  [-12539, -13279, -14010, -14732, -15446, -16151, -16846, -17530, -18204, -18868, -19519, -20159,
    -20787, -21403, -22005, -22594] ++
  [-23170, -23731, -24279, -24811, -25329, -25832, -26319, -26790, -27245, -27683, -28105, -28510,
    -28898, -29268, -29621, -29956] ++
  [-30273, -30571, -30852, -31113, -31356, -31580, -31785, -31971, -32137, -32285, -32412, -32521,
    -32609, -32678, -32728, -32757] ++
  [-32767, -32757, -32728, -32678, -32609, -32521, -32412, -32285, -32137, -31971, -31785, -31580,
    -31356, -31113, -30852, -30571] ++
  [-30273, -29956, -29621, -29268, -28898, -28510, -28105, -27683, -27245, -26790, -26319, -25832,
    -25329, -24811, -24279, -23731] ++
  [-23170, -22594, -22005, -21403, -20787, -20159, -19519, -18868, -18204, -17530, -16846, -16151,
    -15446, -14732, -14010, -13279] ++
  [-12539, -11793, -11039, -10278, -9512, -8739, -7962, -7179, -6393, -5602, -4808, -4011, -3212,
    -2410, -1608, -804]

/-- The build parameters of R5 with their defaults; and the sine table, which a build supplies as data
(40_wavetable.md R123) and `Build.Legal` holds to the formula of R123. -/
structure Build where
  /-- `TABLE_LOG2`: log2 of the table length -/
  tableLog2 : Nat := 8
  /-- `PHASE_W`: width of the phase and increment registers -/
  phaseW : Nat := 32
  /-- `WT_AMP`: amplitude of the sawtooth and square tables -/
  wtAmp : Nat := 32767
  /-- `SINE_AMP`: amplitude of the sine table -/
  sineAmp : Nat := 32767
  /-- `WAVE_A`: table read by oscillator 0 -/
  waveA : Nat := 0
  /-- `WAVE_B`: table read by oscillator 1 -/
  waveB : Nat := 1
  /-- `MAX_POLY`: voice slots built -/
  maxPoly : Nat := 16
  /-- `MAX_CH`: output channels built -/
  maxCh : Nat := 2
  /-- `MAX_BLOCK`: samples per channel of the output buffer -/
  maxBlock : Nat := 4096
  /-- `EVQ_DEPTH`: entries of the event queue -/
  evqDepth : Nat := 64
  /-- `NOTE_ID_W`: width of a note identifier -/
  noteIdW : Nat := 16
  /-- `TWO_PI_Q16`: 2π in UQ3.16 -/
  twoPiQ16 : Nat := 411775
  /-- `WT[2][k]` for k < N (R123) -/
  sine : List Int := sineFirstHalf ++ sineSecondHalf
  deriving DecidableEq, Repr

/-- `v` is the integer nearest to `x`, halves rounded away from zero (40_wavetable.md R123). -/
def Nearest (v : Int) (x : ℝ) : Prop := |v - x| ≤ 1 / 2 ∧ (|v - x| = 1 / 2 → |x| ≤ |(v : ℝ)|)

/-- The legal ranges of R5. It gives none for `NOTE_ID_W` and `TWO_PI_Q16`. -/
structure Build.Legal (b : Build) : Prop where
  tableLog2 : 1 ≤ b.tableLog2 ∧ b.tableLog2 ≤ 16
  phaseW : b.phaseW = 32
  wtAmp : 0 < b.wtAmp ∧ b.wtAmp ≤ 32767
  sineAmp : 0 < b.sineAmp ∧ b.sineAmp ≤ 32767
  waveA : b.waveA ∈ [0, 1, 2]
  waveB : b.waveB ∈ [0, 1, 2]
  maxPoly : 1 ≤ b.maxPoly ∧ b.maxPoly ≤ 256
  maxCh : 1 ≤ b.maxCh ∧ b.maxCh ≤ 256
  maxBlock : 1 ≤ b.maxBlock ∧ b.maxBlock ≤ 65536
  evqDepth : 1 ≤ b.evqDepth
  /-- the table has N samples, each the integer nearest to S · sin(2πk/N) (40_wavetable.md R123) -/
  sine : b.sine.length = 2 ^ b.tableLog2 ∧
    ∀ k < 2 ^ b.tableLog2,
      Nearest (b.sine.getD k 0) (b.sineAmp * Real.sin (2 * Real.pi * k / (2 ^ b.tableLog2 : Nat)))

/-- `N`, the table length (R5). -/
def Build.tableLen (b : Build) : Nat := 2 ^ b.tableLog2

/-- `F`, the number of fraction bits of a phase (R5). -/
def Build.fracBits (b : Build) : Nat := b.phaseW - b.tableLog2

/-- A note identifier of `NOTE_ID_W` bits, from `arg16`: bits above the width are ignored (30_encoding.md
R91). At the default width it is `arg16` (log 12). -/
def Build.noteId (b : Build) (arg16 : Half) : Half := BitVec.ofNat 16 (arg16.toNat % 2 ^ b.noteIdW)

/-- Every parameter at its default, "the value this hardware takes" (R5). -/
def built : Build := {}

/-- The constant the identity register `ID` reads (R1, R23). -/
abbrev idWord : Word := 0x4D505331#32

end Sys2Proof.Config
end

