-- ==== Sys2Proof/Machine/State.lean ====
section
/-! DEFINITION. The state of the block (10_state.md R20 to R40), the model's inputs, the two stop types,
and the state after reset (R36). -/

namespace Sys2Proof.Machine

/-- A fault of the spec is not a stop of the model: `raise` records it, halts the block and goes on
(60_exceptions.md R252, R253), which is a next state. No meaning of this model ends in a fault of the
host's kind, so there is no constructor (safe: nothing can be proved from a stop that does not
exist). -/
inductive Fault : Type where
  deriving DecidableEq, Repr

/-- Why a step has no meaning. -/
inductive Refusal where
  /-- An instruction that has no meaning yet, by its mnemonic. Raised by an arm of `exec` only; no arm
  raises it now. Safe: the machine stops. -/
  | notModelled (mnemonic : String)
  deriving DecidableEq, Repr

/-- `STATUS` (R23); bits 31..5 read as zero. -/
structure Status where
  prepared : Bool
  halted : Bool
  evqOvf : Bool
  noteDropped : Bool
  ctlIllegal : Bool
  deriving DecidableEq, Repr

/-- The global parameter store `STORE[0..6]` (R26), in index order. -/
structure Store where
  cutoff : Word
  attack : Word
  decay : Word
  sustain : Word
  release : Word
  mix : Word
  decayRamp : Word
  deriving DecidableEq, Repr

/-- The shared envelope parameters `ENV_ALEN`, `ENV_DLEN`, `ENV_SUS`, `ENV_RLEN` (R27). -/
structure EnvParams where
  alen : Word
  dlen : Word
  sus : Word
  rlen : Word
  deriving DecidableEq, Repr

/-- The shape of a ramp, its `MODE` bit: 0 linear, 1 exponential (R32). -/
inductive RampMode where
  | linear
  | exponential
  deriving DecidableEq, Repr

/-- A ramp instance (R32). `step` is signed, 33 bits. -/
structure Ramp where
  cur : Word
  tgt : Word
  step : BitVec 33
  cnt : Word
  steps : Word
  coef : Word
  mode : RampMode
  deriving DecidableEq, Repr

/-- An oscillator instance (R30). -/
structure Osc where
  phase : Word
  inc : Word
  deriving DecidableEq, Repr

/-- `ENV[v].STAGE`, 0 to 4 (R31); 5 to 7 are never written, so they are not here (U14). -/
inductive EnvStage where
  | idle
  | attack
  | decay
  | sustain
  | release
  deriving DecidableEq, Repr

/-- The envelope of a voice (R31). -/
structure Env where
  stage : EnvStage
  level : Word
  progress : Word
  relStart : Word
  deriving DecidableEq, Repr

/-- `VSTATE[v]`, 0 to 2 (R29); 3 is never written, so it is not here (U14). -/
inductive VoiceState where
  | free
  | assigned
  | releasing
  deriving DecidableEq, Repr

/-- A voice slot (R29 to R33): `osc0` reads table `WAVE_A`, `osc1` table `WAVE_B`; `filtY` is Q1.31
signed; the ramps are `RMP[v][0]`, `RMP[v][1]`, `RMP[v][2]`. -/
structure Voice where
  vstate : VoiceState
  noteId : Half
  age : Word
  osc0 : Osc
  osc1 : Osc
  env : Env
  filtY : Word
  pressure : Ramp
  timbre : Ramp
  frequency : Ramp
  deriving DecidableEq, Repr

/-- The words of the output buffer (R39), keyed by `MAX_BLOCK · c + n`. An unlisted word reads as zero,
the reset contents (R36). -/
abbrev OutBuf := List (Nat × Word)

/-- Where the render agent stands inside a `RENDER` (R22, 20_memory.md R74): no `RENDER` in progress, or
the body step next, or the end step next, of a `RENDER` of `ns` samples. -/
inductive Phase where
  | idle
  | body (ns : Word)
  | finish (ns : Word)
  deriving DecidableEq, Repr

/-- Who takes an atomic step: the render agent, the control agent (R71), or the reset input (R280). -/
inductive Turn where
  | render
  | control
  | reset
  deriving DecidableEq, Repr

/-- The state of the block, built with the parameters `build` (00_scope.md R5), which are the model's argument
and no state: no step writes them (log 12). The last four fields are the model's, not the spec's state: what
the outside knows of past blocks (R75; log 7), and the inputs, which are the commands still to be presented on
the two ports and the interleaving of the agents' steps (R71, R283; log 1). `ID` is a constant, `EVQ_COUNT` is
the length of `evq`, the wavetable bank is a constant of the build (R40). -/
structure State where
  build : Config.Build
  status : Status
  faultCause : Octet
  faultW0 : Word
  srate : Word
  maxblk : Word
  poly : Word
  numCh : Word
  numSamp : Word
  assignSeq : Word
  result : Word
  /-- bit 0 `STEAL_EN`, bit 1 `STEAL_POLICY`, bit 2 `FILT_EN`, bit 3 `RAMP_MODE` (R25) -/
  cfgCtrl : BitVec 4
  cfgRampT : Word
  cfgAmpScale : Half
  store : Store
  envParams : EnvParams
  filtA : Half
  mixActive : Word
  decayRampActive : Word
  /-- `GR[0]` (R28) -/
  grCutoff : Ramp
  /-- `GR[1]` -/
  grMix : Ramp
  /-- `GR[2]` -/
  grDecayRamp : Ramp
  /-- the `MAX_POLY` slots, in pool order (R21) -/
  voices : List Voice
  evq : List Event
  out : OutBuf
  phase : Phase
  /-- a `RENDER` has completed since reset, so that the audio sink has a block to read (log 7) -/
  rendered : Bool
  renderIn : List Command
  controlIn : List Command
  turns : List Turn
  deriving DecidableEq, Repr

/-- A ramp after reset (R36). -/
def Ramp.zero : Ramp where
  cur := 0
  tgt := 0
  step := 0
  cnt := 0
  steps := 0
  coef := BitVec.ofNat 32 one31
  mode := .linear

/-- A voice slot after reset (R36). -/
def Voice.zero : Voice where
  vstate := .free
  noteId := 0
  age := 0
  osc0 := ⟨0, 0⟩
  osc1 := ⟨0, 0⟩
  env := ⟨.idle, 0, 0, 0⟩
  filtY := 0
  pressure := Ramp.zero
  timbre := Ramp.zero
  frequency := Ramp.zero

/-- The state after reset (R36) of a block with the parameters `b`, with nothing presented on either port. -/
def State.resetOf (b : Config.Build) : State where
  build := b
  status := ⟨false, false, false, false, false⟩
  faultCause := 0
  faultW0 := 0
  srate := 0
  maxblk := 0
  poly := 0
  numCh := 0
  numSamp := 0
  assignSeq := 0
  result := 0
  cfgCtrl := 0x4
  cfgRampT := 0x00000400
  cfgAmpScale := 0x1000
  store := ⟨0x03E80000, 0x00000400, 0x00002000, 0x60000000, 0x00004000, 0, 0⟩
  envParams := ⟨0, 0, 0, 0⟩
  filtA := 0
  mixActive := 0
  decayRampActive := 0
  grCutoff := Ramp.zero
  grMix := Ramp.zero
  grDecayRamp := Ramp.zero
  voices := List.replicate b.maxPoly Voice.zero
  evq := []
  out := []
  phase := .idle
  rendered := false
  renderIn := []
  controlIn := []
  turns := []

/-- The state after reset (R36) of this hardware, every build parameter at its default (00_scope.md R5). -/
def State.reset : State := State.resetOf Config.built

end Sys2Proof.Machine
end

