-- ==== Sys2Proof/Machine/Flags.lean ====
section
/-! DEFINITION. Every flag and mode bit: `STATUS` (10_state.md R23), the fields of `CFG_CTRL` (R25), the
codes of the fields that are named values in State. -/

namespace Sys2Proof.Machine

/-- A flag as the bit `k` of a word. -/
def flagBit (b : Bool) (k : Nat) : Nat := if b then 2 ^ k else 0

/-- `STATUS` as a word (R23); bits 31..5 are zero. -/
def Status.word (t : Status) : Word :=
  BitVec.ofNat 32 (flagBit t.prepared 0 + flagBit t.halted 1 + flagBit t.evqOvf 2 +
    flagBit t.noteDropped 3 + flagBit t.ctlIllegal 4)

/-- `WRCFG` index 3 (R226): the sticky flags whose bit of `x` is 1 are cleared. -/
def Status.clearSticky (t : Status) (x : Word) : Status where
  prepared := t.prepared
  halted := t.halted
  evqOvf := t.evqOvf && !x.getLsbD 2
  noteDropped := t.noteDropped && !x.getLsbD 3
  ctlIllegal := t.ctlIllegal && !x.getLsbD 4

/-- `STATUS` after a successful `PREPARE` (R221): the sticky flags cleared, `PREPARED` set. -/
def Status.afterPrepare (t : Status) : Status where
  prepared := true
  halted := t.halted
  evqOvf := false
  noteDropped := false
  ctlIllegal := false

/-- `STATUS.CTL_ILLEGAL <- 1`: the control port discards a word (R96). -/
def State.setCtlIllegal (s : State) : State :=
  { s with status := { s.status with ctlIllegal := true } }

/-- `STATUS.NOTE_DROPPED <- 1` (R206). -/
def State.setNoteDropped (s : State) : State :=
  { s with status := { s.status with noteDropped := true } }

/-- `STATUS.EVQ_OVF <- 1` (R66). -/
def State.setEvqOvf (s : State) : State :=
  { s with status := { s.status with evqOvf := true } }

/-- `CFG_CTRL.STEAL_EN` (R25). -/
def State.stealEn (s : State) : Bool := s.cfgCtrl.getLsbD 0

/-- `CFG_CTRL.STEAL_POLICY` (R25). -/
def State.stealPolicy (s : State) : Bool := s.cfgCtrl.getLsbD 1

/-- `CFG_CTRL.FILT_EN` (R25). -/
def State.filtEn (s : State) : Bool := s.cfgCtrl.getLsbD 2

/-- `CFG_CTRL.RAMP_MODE` (R25). -/
def State.rampMode (s : State) : RampMode :=
  if s.cfgCtrl.getLsbD 3 then .exponential else .linear

/-- The code of `VSTATE` (R29). -/
def VoiceState.code : VoiceState → Word
  | .free => 0
  | .assigned => 1
  | .releasing => 2

/-- The code of `STAGE` (R31). -/
def EnvStage.code : EnvStage → Word
  | .idle => 0
  | .attack => 1
  | .decay => 2
  | .sustain => 3
  | .release => 4

/-- The code of `MODE` (R32). -/
def RampMode.code : RampMode → Word
  | .linear => 0
  | .exponential => 1

end Sys2Proof.Machine
end

