-- ==== Sys2Proof/Machine/Operands.lean ====
section
/-! DEFINITION. Every operand treatment of the spec: the clamps and saturations of 00_scope.md R10, the
operand kinds of 30_encoding.md R92, and the selection of a voice, an oscillator, a ramp, a store word
(20_memory.md R69). -/

namespace Sys2Proof.Machine

/-- `clamp15(w)` = min(w[15:0], 0x8000) (R10): a pressure, a timbre, an amplitude scale. -/
def clamp15 (w : Word) : Half := BitVec.ofNat 16 (min (w.toNat % 2 ^ 16) one15)

/-- `clamp15(w) · 2^16`, a UQ1.15 operand as a UQ1.31 ramp target (R181). -/
def clamp15Target (w : Word) : Word := BitVec.ofNat 32 (2 ^ 16 * (clamp15 w).toNat)

/-- `clamp31(w)` = min(w, 0x8000_0000) (R10): a sustain or mix store word. -/
def clamp31 (w : Word) : Word := BitVec.ofNat 32 (min w.toNat one31)

/-- `sat32u(n)` = min(n, 2^32 − 1) (R10): a length in samples. -/
def sat32u (n : Nat) : Word := BitVec.ofNat 32 (min n (2 ^ 32 - 1))

/-- `sat16(k)` = max(−32768, min(32767, k)) (R10): the sink's clip. -/
def sat16 (k : Int) : Int := max (-32768) (min 32767 k)

/-- `sext_16` of an integer (R10): its low 16 bits as a signed number. -/
def sext16 (k : Int) : Int := (BitVec.ofInt 16 k).toInt

/-- A sample operand: `A[15:0]` as Q1.15 signed, upper bits ignored (R92). -/
def sampleOperand (w : Word) : Int := (w.extractLsb' 0 16).toInt

/-- A signed value as the 32-bit response word: `sext` of a narrower signed value, `wrap32` of a wider
one (R10, R195). -/
def wordOfInt (k : Int) : Word := BitVec.ofInt 32 k

/-- `w[31:16]` as a UQ1.15 number (R186). -/
def top16 (w : Word) : Nat := w.toNat / 2 ^ 16

/-- A length in samples: `sat32u(floor(time · fs / 2^16))`, time in UQ16.16 seconds (R140, R156). -/
def samplesOf (time fs : Word) : Word := sat32u (time.toNat * fs.toNat / 2 ^ 16)

/-- The voice operand of a command is in range: v < `POLY` (R92). -/
def State.voiceOk (s : State) (v : Octet) : Bool := v.toNat < s.poly.toNat

/-- The oscillator operand is 0 or 1 (R92). -/
def oscOk (o : Half) : Bool := o.toNat ≤ 1

/-- `OSC[v][o]` (R69). -/
def Voice.osc (x : Voice) (o : Nat) : Osc := if o = 0 then x.osc0 else x.osc1

/-- Voice `x` with `OSC[v][o]` replaced (R69). -/
def Voice.setOsc (x : Voice) (o : Nat) (q : Osc) : Voice :=
  if o = 0 then { x with osc0 := q } else { x with osc1 := q }

/-- `tbl(o)` (R130): `WAVE_A` for oscillator 0, `WAVE_B` for oscillator 1. -/
def oscTable (b : Config.Build) (o : Nat) : Nat := if o = 0 then b.waveA else b.waveB

/-- The six ramp selects (R69): three of a voice, three global. -/
inductive RampRef where
  | pressure (v : Nat)
  | timbre (v : Nat)
  | frequency (v : Nat)
  | cutoff
  | mix
  | decayRamp
  deriving DecidableEq, Repr

/-- `ramp(sel, r)` (43_ramp.md R161); `none` where the rule raises `F_BAD_INDEX`. -/
def State.selectRamp (s : State) (sel : Octet) (r : Half) : Option RampRef :=
  if 5 < r.toNat then none
  else if r.toNat ≤ 2 then
    if s.voiceOk sel then
      some (if r.toNat = 0 then .pressure sel.toNat
        else if r.toNat = 1 then .timbre sel.toNat
        else .frequency sel.toNat)
    else none
  else if sel = 0 then
    some (if r.toNat = 3 then .cutoff else if r.toNat = 4 then .mix else .decayRamp)
  else none

/-- `STORE[i] <- x` (R69, R227); an index above 6 names no word. -/
def Store.set (t : Store) (i : Nat) (x : Word) : Store :=
  match i with
  | 0 => { t with cutoff := x }
  | 1 => { t with attack := x }
  | 2 => { t with decay := x }
  | 3 => { t with sustain := x }
  | 4 => { t with release := x }
  | 5 => { t with mix := x }
  | 6 => { t with decayRamp := x }
  | _ => t

end Sys2Proof.Machine
end

