-- ==== Sys2Proof/Machine/Ops.lean ====
section
/-! DEFINITION. The named operations over the state: raising a fault and the decode order of the render
port (30_encoding.md R94, 60_exceptions.md R252, R253), what a port does with a command it may not
execute (R96, R257), the voice slots, the output buffer (20_memory.md R62, 46_mixer.md R195, R196), the
event queue (20_memory.md R66), the response word. -/

namespace Sys2Proof.Machine

/-! ### Faults and ports -/

/-- The faults of R250. -/
inductive FaultCause where
  | illegalCmd
  | notPrepared
  | cfgSrate
  | cfgPoly
  | cfgBlock
  | renderArgs
  | badIndex
  | badOperand
  deriving DecidableEq, Repr

/-- The code of a fault (R250). -/
def FaultCause.code : FaultCause → Octet
  | .illegalCmd => 1
  | .notPrepared => 2
  | .cfgSrate => 3
  | .cfgPoly => 4
  | .cfgBlock => 5
  | .renderArgs => 6
  | .badIndex => 7
  | .badOperand => 8

/-- The port whose command is being executed: the port of the agent whose turn it is (log 3). -/
def State.port (s : State) : Port :=
  match s.turns with
  | .control :: _ => .control
  | _ => .render

/-- `raise F_X` on a command whose first word is `w0` (R252): the only three things that change. -/
def State.raise (s : State) (c : FaultCause) (w0 : Word) : State :=
  { s with
    faultCause := c.code
    faultW0 := w0
    status := { s.status with halted := true } }

/-- The "needs P" column of R93, for the render port. -/
def needsPrepared : Instr → Bool
  | .nop | .prepare _ _ _ | .wrcfg _ _ | .rdreg _ _ | .setglobal _ _ | .wtRead _ _ => false
  | .render _ _
  | .evNoteon _ _ _ _ | .evNoteoff _ _ _ _ | .evPressure _ _ _ _ | .evPitch _ _ _ _
  | .evTimbre _ _ _ _
  | .oscSetfreq _ _ _ _ | .oscNext _ _ | .oscReset _ _
  | .envNoteon _ | .envNoteoff _ | .envNext _ | .envIsactive _ | .envLoadp
  | .rmpSettarget _ _ _ | .rmpReset _ _ _ _ | .rmpNext _ _ | .rmpGetcur _ _
  | .fltCoef _ _ | .fltNext _ _ | .fltClear _
  | .vAssign _ _ _ _ _ | .vPressure _ _ | .vPitch _ _ | .vTimbre _ _ | .vRelease _
  | .vRender _ _ _
  | .mixClear _ _ | .mixAcc _ _ | .mixRead _ _ | .mixReadsat _ _ => true

/-- What a command's own rule answers: the state after its effect, or the first of its own checks that
fails (R94 steps 4 to 6). -/
abbrev Effect := Except FaultCause State

/-- The end of R94: the effect, or the raise of the check that failed. -/
def State.settle (s : State) (i : Instr) (e : Effect) : State :=
  match e with
  | .ok t => t
  | .error c => s.raise c (encode i).w0

/-- The decode order of the render port (R94 steps 1, 3 and on) for a well-formed command `i` whose own
rule answers `e`. -/
def State.onRender (s : State) (i : Instr) (e : Effect) : State :=
  if s.status.halted then s
  else if needsPrepared i && !s.status.prepared then s.raise .notPrepared (encode i).w0
  else s.settle i e

/-- A word the render port may not execute (R94 steps 1 and 2). -/
def State.illegalOnRender (s : State) (w0 : Word) : State :=
  if s.status.halted then s else s.raise .illegalCmd w0

/-- A word that is no command, or not one of the port's (R94, R96, R257). -/
def State.illegal (s : State) (w0 : Word) : State :=
  match s.port with
  | .render => s.illegalOnRender w0
  | .control => s.setCtlIllegal

/-- A command of the render port alone: its effect there, discarded on the control port (R257). -/
def renderCommand (i : Instr) (s : State) (e : Effect) : Host.Outcome State Fault Refusal :=
  match s.port with
  | .render => .next (s.onRender i e)
  | .control => .next s.setCtlIllegal

/-! ### Voice slots -/

/-- Voice slot `v`; a slot that is not built reads as a slot after reset (log 4). -/
def State.voice (s : State) (v : Nat) : Voice := s.voices[v]?.getD Voice.zero

/-- Voice slot `v` replaced; a slot that is not built holds nothing (log 4). -/
def State.setVoice (s : State) (v : Nat) (x : Voice) : State :=
  { s with voices := s.voices.set v x }

/-- Voice slot `v` changed by `f`. -/
def State.updVoice (s : State) (v : Nat) (f : Voice → Voice) : State := s.setVoice v (f (s.voice v))

/-- The slots in use, 0 .. `POLY` − 1 in pool order (R21), of those that are built. -/
def State.slots (s : State) : List Nat :=
  (List.range s.voices.length).filter fun v => v < s.poly.toNat

/-! ### Ramps -/

/-- The selected ramp (R161). -/
def State.ramp (s : State) : RampRef → Ramp
  | .pressure v => (s.voice v).pressure
  | .timbre v => (s.voice v).timbre
  | .frequency v => (s.voice v).frequency
  | .cutoff => s.grCutoff
  | .mix => s.grMix
  | .decayRamp => s.grDecayRamp

/-- The selected ramp replaced. -/
def State.setRamp (s : State) (q : RampRef) (x : Ramp) : State :=
  match q with
  | .pressure v => s.updVoice v fun y => { y with pressure := x }
  | .timbre v => s.updVoice v fun y => { y with timbre := x }
  | .frequency v => s.updVoice v fun y => { y with frequency := x }
  | .cutoff => { s with grCutoff := x }
  | .mix => { s with grMix := x }
  | .decayRamp => { s with grDecayRamp := x }

/-! ### Response word -/

/-- `RESULT <- w` (R11). -/
def State.setResult (s : State) (w : Word) : State := { s with result := w }

/-! ### Output buffer -/

/-- `OUT[c][n]` is a word of the buffer (R62). -/
abbrev outExists (b : Config.Build) (c n : Nat) : Prop := c < b.maxCh ∧ n < b.maxBlock

/-- The key of `OUT[c][n]`. -/
def outKey (b : Config.Build) (c n : Nat) : Nat := b.maxBlock * c + n

/-- The word under a key; an unlisted key reads as zero (R36). -/
def bufRead : OutBuf → Nat → Word
  | [], _ => 0
  | e :: m, k => if e.1 = k then e.2 else bufRead m k

/-- The word under a key replaced, in the canonical form: keys rising, no zero word listed. -/
def bufWrite : OutBuf → Nat → Word → OutBuf
  | [], k, w => if w = 0 then [] else [(k, w)]
  | e :: m, k, w =>
    if k < e.1 then (if w = 0 then e :: m else (k, w) :: e :: m)
    else if k = e.1 then (if w = 0 then m else (k, w) :: m)
    else e :: bufWrite m k w

/-- The canonical form: keys strictly rising, every key that of a word of the buffer, no zero listed. -/
abbrev OutBuf.wf (b : Config.Build) (m : OutBuf) : Prop :=
  m.Pairwise (fun a b => a.1 < b.1) ∧
    ∀ e ∈ m, e.1 < b.maxCh * b.maxBlock ∧ e.2 ≠ 0

/-- `OUT[c][n]`; a word that does not exist reads as zero (log 4). -/
def readOut (b : Config.Build) (m : OutBuf) (c n : Nat) : Word :=
  if outExists b c n then bufRead m (outKey b c n) else 0

/-- `OUT[c][n] <- w`; a word that does not exist holds nothing (log 4). -/
def writeOut (b : Config.Build) (m : OutBuf) (c n : Nat) (w : Word) : OutBuf :=
  if outExists b c n then bufWrite m (outKey b c n) w else m

/-- `MixAdd(c, n, y)` (R195): `OUT[c][n] <- wrap32(OUT[c][n] + y)`. -/
def mixAdd (b : Config.Build) (m : OutBuf) (c n : Nat) (y : Int) : OutBuf :=
  writeOut b m c n (wordOfInt ((readOut b m c n).toInt + y))

/-- `MixAdd(c, n, y)` for every channel c below `nch`, of those that are built (R186, R197). -/
def mixAddAll (b : Config.Build) (m : OutBuf) (nch n : Nat) (y : Int) : OutBuf :=
  ((List.range b.maxCh).filter fun c => c < nch).foldl (fun m c => mixAdd b m c n y) m

/-- `OUT[c][n] <- 0` for every c < `nch` and n < `ns` (R196): those words are no longer listed. -/
def clearOut (b : Config.Build) (m : OutBuf) (nch ns : Nat) : OutBuf :=
  m.filter fun e => !(e.1 / b.maxBlock < nch && e.1 % b.maxBlock < ns)

/-! ### Event queue -/

/-- `EVQ_COUNT` (R24): the number of waiting events. What the 32-bit register reads with 2^32 or more of them
waiting, in a build whose `EVQ_DEPTH` allows it, the spec leaves open; here it is their number modulo 2^32
(DESIGN CHOICE, log 19). -/
def State.evqCount (s : State) : Word := BitVec.ofNat 32 s.evq.length

/-- `EvqPush(w)` (R66). -/
def State.evqPush (s : State) (e : Event) : State :=
  if s.evq.length < s.build.evqDepth then { s with evq := s.evq ++ [e] } else s.setEvqOvf

/-- `EvqFlush()` (R66). -/
def State.evqFlush (s : State) : State := { s with evq := [] }

end Sys2Proof.Machine
end

