-- ==== Sys2Proof/Machine/Envelope.lean ====
section
/-! DEFINITION. The envelope generator and its state machine (42_envelope.md R140 to R146). -/

namespace Sys2Proof.Machine

/-- The snapshot of the shared parameters (R140). -/
def envSnapshot (t : Store) (srate : Word) : EnvParams where
  alen := samplesOf t.attack srate
  dlen := samplesOf t.decay srate
  sus := clamp31 t.sustain
  rlen := samplesOf t.release srate

/-- `ENV.LOADP` as an operation (R140). -/
def State.loadEnvParams (s : State) : State :=
  { s with envParams := envSnapshot s.store s.srate }

/-- `ENV.NOTEON` on an envelope (R141). -/
def Env.noteOn (e : Env) : Env := { e with stage := .attack, progress := 0, level := 0 }

/-- `ENV.NOTEOFF` on an envelope (R142). -/
def Env.noteOff (e : Env) : Env :=
  { e with relStart := e.level, stage := .release, progress := 0 }

/-- `ENV.NEXT` in Attack (R143). -/
def Env.nextAttack (p : EnvParams) (e : Env) : Env :=
  let n := e.progress.toNat + 1
  if p.alen.toNat ≤ n then
    { e with level := BitVec.ofNat 32 one31, stage := .decay, progress := 0 }
  else
    { e with
      level := BitVec.ofNat 32 (max e.level.toNat (one31 * n / p.alen.toNat))
      progress := BitVec.ofNat 32 n }

/-- `ENV.NEXT` in Decay (R143). -/
def Env.nextDecay (p : EnvParams) (e : Env) : Env :=
  let n := e.progress.toNat + 1
  if p.dlen.toNat ≤ n then
    { e with
      level := BitVec.ofNat 32 (min e.level.toNat p.sus.toNat), stage := .sustain, progress := 0 }
  else
    { e with
      level := BitVec.ofNat 32
        (min e.level.toNat (one31 - (one31 - p.sus.toNat) * n / p.dlen.toNat))
      progress := BitVec.ofNat 32 n }

/-- The level of `ENV.NEXT` in Release (R143), `n` the progress after the count. -/
def releaseLevel (p : EnvParams) (e : Env) (n : Nat) : Nat :=
  if p.rlen.toNat ≤ n then 0
  else min e.level.toNat (e.relStart.toNat - e.relStart.toNat * n / p.rlen.toNat)

/-- `ENV.NEXT` in Release (R143): Idle is entered at level 0. -/
def Env.nextRelease (p : EnvParams) (e : Env) : Env :=
  let n := e.progress.toNat + 1
  let l := releaseLevel p e n
  if l = 0 then { e with level := 0, stage := .idle, progress := 0 }
  else { e with level := BitVec.ofNat 32 l, progress := BitVec.ofNat 32 n }

/-- `ENV.NEXT` on an envelope (R143); the value returned is the new level. -/
def Env.next (p : EnvParams) (e : Env) : Env :=
  match e.stage with
  | .idle => { e with level := 0 }
  | .attack => e.nextAttack p
  | .decay => e.nextDecay p
  | .sustain => { e with level := p.sus }
  | .release => e.nextRelease p

/-- `ENV.LOADP` (R140). -/
def execEnvLoadp (s : State) : Host.Outcome State Fault Refusal :=
  renderCommand .envLoadp s (.ok s.loadEnvParams)

/-- `ENV.NOTEON v` (R141). -/
def execEnvNoteon (v : Octet) (s : State) : Host.Outcome State Fault Refusal :=
  renderCommand (.envNoteon v) s <|
    if !s.voiceOk v then .error .badIndex
    else .ok (s.updVoice v.toNat fun x => { x with env := x.env.noteOn })

/-- `ENV.NOTEOFF v` (R142). -/
def execEnvNoteoff (v : Octet) (s : State) : Host.Outcome State Fault Refusal :=
  renderCommand (.envNoteoff v) s <|
    if !s.voiceOk v then .error .badIndex
    else .ok (s.updVoice v.toNat fun x => { x with env := x.env.noteOff })

/-- `ENV.NEXT v` (R143). -/
def execEnvNext (v : Octet) (s : State) : Host.Outcome State Fault Refusal :=
  renderCommand (.envNext v) s <|
    if !s.voiceOk v then .error .badIndex
    else
      let e := (s.voice v.toNat).env.next s.envParams
      .ok ((s.updVoice v.toNat fun x => { x with env := e }).setResult e.level)

/-- `ENV.ISACTIVE v` (R144). -/
def execEnvIsactive (v : Octet) (s : State) : Host.Outcome State Fault Refusal :=
  renderCommand (.envIsactive v) s <|
    if !s.voiceOk v then .error .badIndex
    else .ok (s.setResult (if (s.voice v.toNat).env.stage = .idle then 0 else 1))

end Sys2Proof.Machine
end

