-- ==== Sys2Proof/Machine/Filter.lean ====
section
/-! DEFINITION. The one-pole low-pass filter (44_filter.md R170 to R174). -/

namespace Sys2Proof.Machine

/-- The shared coefficient (R171): min(0x8000, floor(cutoff · 2π_Q16 / (fs · 2^17))). -/
def filterCoef (b : Config.Build) (cutoff fs : Word) : Half :=
  BitVec.ofNat 16 (min (b.twoPiQ16 * cutoff.toNat / (2 ^ 17 * fs.toNat)) one15)

/-- `FLT.COEF(cutoff, fs)` as an operation (R171). -/
def State.loadFilterCoef (s : State) (cutoff fs : Word) : State :=
  { s with filtA := filterCoef s.build cutoff fs }

/-- The new filter state for the input `x` (R172), of which the low 16 bits count (log 16); with the filter
off the state tracks the input. -/
def filterNext (en : Bool) (a : Half) (y : Word) (x : Int) : Word :=
  let xs := sext16 x * 2 ^ 16
  if en then wordOfInt (y.toInt + (a.toNat : Int) * (xs - y.toInt) / 2 ^ 15) else wordOfInt xs

/-- The output of the filter (R172): the top 16 bits of its state. -/
def filterOut (y : Word) : Int := y.toInt / 2 ^ 16

/-- `FLT.COEF cutoff, fs` (R171). -/
def execFltCoef (cutoff fs : Word) (s : State) : Host.Outcome State Fault Refusal :=
  renderCommand (.fltCoef cutoff fs) s <|
    if fs = 0 then .error .badOperand else .ok (s.loadFilterCoef cutoff fs)

/-- `FLT.NEXT v, x` (R172). -/
def execFltNext (v : Octet) (x : Word) (s : State) : Host.Outcome State Fault Refusal :=
  renderCommand (.fltNext v x) s <|
    if !s.voiceOk v then .error .badIndex
    else
      let y := filterNext s.filtEn s.filtA (s.voice v.toNat).filtY (sampleOperand x)
      .ok ((s.updVoice v.toNat fun z => { z with filtY := y }).setResult (wordOfInt (filterOut y)))

/-- `FLT.CLEAR v` (R173). -/
def execFltClear (v : Octet) (s : State) : Host.Outcome State Fault Refusal :=
  renderCommand (.fltClear v) s <|
    if !s.voiceOk v then .error .badIndex
    else .ok (s.updVoice v.toNat fun z => { z with filtY := 0 })

end Sys2Proof.Machine
end

