-- ==== Sys2Proof/Machine/Wavetable.lean ====
section
/-! DEFINITION. The wavetable bank, a constant of the block (40_wavetable.md R120 to R124, R126), and
`WT.READ` (R125). Samples are signed Q1.15 integers. -/

namespace Sys2Proof.Machine

/-- `WT[0][k]` for k < N (R122): from −A up, sample k at the fraction k/N of the way to +A. -/
def sawtooth (b : Config.Build) (k : Nat) : Int := -b.wtAmp + 2 * b.wtAmp * k / b.tableLen

/-- `WT[1][k]` for k < N (R122). -/
def square (b : Config.Build) (k : Nat) : Int := if k < b.tableLen / 2 then b.wtAmp else -b.wtAmp

/-- `WT[2][k]` for k < N (R123): the table the build supplies as data, which in a legal build is that of the
formula (`Config.Build.Legal`). -/
def sine (b : Config.Build) (k : Nat) : Int := b.sine.getD k 0

/-- Sample k < N of table `t` (R120). -/
def waveSample (b : Config.Build) (t k : Nat) : Int :=
  if t = 0 then sawtooth b k else if t = 1 then square b k else sine b k

/-- `WT[t][i]`, 0 ≤ i ≤ N; the guard sample at N is sample 0 (R124). -/
def wt (b : Config.Build) (t i : Nat) : Int :=
  if i < b.tableLen then waveSample b t i else waveSample b t 0

/-- `WT.READ t, i` (R125). -/
def execWtRead (t : Octet) (i : Half) (s : State) : Host.Outcome State Fault Refusal :=
  renderCommand (.wtRead t i) s <|
    if 2 < t.toNat ∨ s.build.tableLen < i.toNat then .error .badIndex
    else .ok (s.setResult (wordOfInt (wt s.build t.toNat i.toNat)))

end Sys2Proof.Machine
end

