-- ==== Sys2Proof/Machine/Oscillator.lean ====
section
/-! DEFINITION. The phase-accumulator oscillator (41_oscillator.md R130 to R134). -/

namespace Sys2Proof.Machine

/-- The increment of a frequency (R131): floor(f · 2^16 / fs) mod 2^32. -/
def oscIncrement (f fs : Word) : Word := BitVec.ofNat 32 (2 ^ 16 * f.toNat / fs.toNat)

/-- The interpolated sample of table `t` at a phase (R132). -/
def oscSample (b : Config.Build) (t : Nat) (phase : Word) : Int :=
  let i0 := phase.toNat / 2 ^ b.fracBits
  let frac : Int := (phase.toNat % 2 ^ b.fracBits : Nat)
  wt b t i0 + frac * (wt b t (i0 + 1) - wt b t i0) / 2 ^ b.fracBits

/-- `INC` set from a frequency; the phase is kept (R131). -/
def Osc.setFreq (q : Osc) (f fs : Word) : Osc := { q with inc := oscIncrement f fs }

/-- The phase advance of `OSC.NEXT` (R132), modulo 2^32. -/
def Osc.advance (q : Osc) : Osc := { q with phase := q.phase + q.inc }

/-- The phase set to zero; the increment is kept (R133). -/
def Osc.resetPhase (q : Osc) : Osc := { q with phase := 0 }

/-- `OSC.SETFREQ v, o, f, fs` (R131). -/
def execOscSetfreq (v : Octet) (o : Half) (f fs : Word) (s : State) :
    Host.Outcome State Fault Refusal :=
  renderCommand (.oscSetfreq v o f fs) s <|
    if !s.voiceOk v || !oscOk o then .error .badIndex
    else if fs = 0 then .error .badOperand
    else .ok (s.updVoice v.toNat fun x => x.setOsc o.toNat ((x.osc o.toNat).setFreq f fs))

/-- `OSC.NEXT v, o` (R132): the sample is that of the phase before the advance. -/
def execOscNext (v : Octet) (o : Half) (s : State) : Host.Outcome State Fault Refusal :=
  renderCommand (.oscNext v o) s <|
    if !s.voiceOk v || !oscOk o then .error .badIndex
    else
      let q := (s.voice v.toNat).osc o.toNat
      .ok ((s.updVoice v.toNat fun x => x.setOsc o.toNat q.advance).setResult
        (wordOfInt (oscSample s.build (oscTable s.build o.toNat) q.phase)))

/-- `OSC.RESET v, o` (R133). -/
def execOscReset (v : Octet) (o : Half) (s : State) : Host.Outcome State Fault Refusal :=
  renderCommand (.oscReset v o) s <|
    if !s.voiceOk v || !oscOk o then .error .badIndex
    else .ok (s.updVoice v.toNat fun x => x.setOsc o.toNat (x.osc o.toNat).resetPhase)

end Sys2Proof.Machine
end

