-- ==== Sys2Proof/Machine/Ramp.lean ====
section
/-! DEFINITION. The parameter ramp, linear and exponential (43_ramp.md R155 to R161). -/

namespace Sys2Proof.Machine

/-- `COEF` of a ramp of `steps` ticks (R156). -/
def rampCoef (steps : Word) : Word :=
  if steps.toNat ≤ 1 then BitVec.ofNat 32 one31
  else BitVec.ofNat 32 (max 1 (one31 / steps.toNat))

/-- `RMP.RESET` on a ramp (R156): the current value snaps to the target. -/
def Ramp.reset (x : Ramp) (fs time : Word) (mode : RampMode) : Ramp where
  cur := x.tgt
  tgt := x.tgt
  step := 0
  cnt := 0
  steps := samplesOf time fs
  coef := rampCoef (samplesOf time fs)
  mode := mode

/-- The step of a fresh linear ramp from `cur` to `x` in `steps` ticks (R157), rounded toward zero. -/
def rampStep (cur x steps : Word) : BitVec 33 :=
  BitVec.ofInt 33 (((x.toNat : Int) - cur.toNat).tdiv steps.toNat)

/-- `RMP.SETTARGET` on a ramp (R157). -/
def Ramp.setTarget (q : Ramp) (x : Word) : Ramp :=
  if q.steps = 0 then { q with tgt := x, cur := x, cnt := 0, step := 0 }
  else match q.mode with
    | .linear =>
      if x = q.tgt then q
      else { q with tgt := x, cnt := q.steps, step := rampStep q.cur x q.steps }
    | .exponential => { q with tgt := x }

/-- The linear tick of `RMP.NEXT` (R158). -/
def Ramp.nextLinear (q : Ramp) : Ramp :=
  if q.cnt = 0 then q
  else if q.cnt = 1 then { q with cnt := 0, cur := q.tgt }
  else { q with cnt := q.cnt - 1, cur := BitVec.ofInt 32 ((q.cur.toNat : Int) + q.step.toInt) }

/-- The exponential tick of `RMP.NEXT` (R158): m is the ceiling of abs(d) · COEF / 2^31. -/
def Ramp.nextExponential (q : Ramp) : Ramp :=
  let d : Int := (q.tgt.toNat : Int) - q.cur.toNat
  let m : Int := (((one31 - 1) + d.natAbs * q.coef.toNat) / one31 : Nat)
  if d = 0 then q
  else if 0 < d then { q with cur := BitVec.ofInt 32 (q.cur.toNat + m) }
  else { q with cur := BitVec.ofInt 32 (q.cur.toNat - m) }

/-- `RMP.NEXT` on a ramp (R158); the value returned is the new `CUR`. -/
def Ramp.next (q : Ramp) : Ramp :=
  match q.mode with
  | .linear => q.nextLinear
  | .exponential => q.nextExponential

/-- `n` ticks of a ramp (48_engine_system.md R225). -/
def Ramp.ticks : Nat → Ramp → Ramp
  | 0, q => q
  | n + 1, q => Ramp.ticks n q.next

/-- `RMP.SETTARGET sel, r, x` (R157). -/
def execRmpSettarget (sel : Octet) (r : Half) (x : Word) (s : State) :
    Host.Outcome State Fault Refusal :=
  renderCommand (.rmpSettarget sel r x) s <|
    match s.selectRamp sel r with
    | none => .error .badIndex
    | some q => .ok (s.setRamp q ((s.ramp q).setTarget x))

/-- `RMP.RESET sel, r, fs, T` (R156). -/
def execRmpReset (sel : Octet) (r : Half) (fs time : Word) (s : State) :
    Host.Outcome State Fault Refusal :=
  renderCommand (.rmpReset sel r fs time) s <|
    match s.selectRamp sel r with
    | none => .error .badIndex
    | some q =>
      if fs = 0 then .error .badOperand
      else .ok (s.setRamp q ((s.ramp q).reset fs time s.rampMode))

/-- `RMP.NEXT sel, r` (R158). -/
def execRmpNext (sel : Octet) (r : Half) (s : State) : Host.Outcome State Fault Refusal :=
  renderCommand (.rmpNext sel r) s <|
    match s.selectRamp sel r with
    | none => .error .badIndex
    | some q => .ok ((s.setRamp q (s.ramp q).next).setResult (s.ramp q).next.cur)

/-- `RMP.GETCUR sel, r` (R159). -/
def execRmpGetcur (sel : Octet) (r : Half) (s : State) : Host.Outcome State Fault Refusal :=
  renderCommand (.rmpGetcur sel r) s <|
    match s.selectRamp sel r with
    | none => .error .badIndex
    | some q => .ok (s.setResult (s.ramp q).cur)

end Sys2Proof.Machine
end

