-- ==== Sys2Proof/Machine/Voice.lean ====
section
/-! DEFINITION. The voice: its life cycle, its operations and its per-sample datapath (45_voice.md R180 to
R188). -/

namespace Sys2Proof.Machine

/-- The voice part of `V.ASSIGN` (R181). -/
def Voice.assign (x : Voice) (seq : Word) (id : Half) (f p tb : Word) : Voice where
  vstate := .assigned
  noteId := id
  age := seq
  osc0 := x.osc0.resetPhase
  osc1 := x.osc1.resetPhase
  env := x.env.noteOn
  filtY := 0
  pressure := x.pressure.setTarget (clamp15Target p)
  timbre := x.timbre.setTarget (clamp15Target tb)
  frequency := x.frequency.setTarget f

/-- `V.ASSIGN(v, id, f, p, tb)` as an operation (R181). -/
def State.assignVoice (s : State) (v : Nat) (id : Half) (f p tb : Word) : State :=
  { s.updVoice v (fun x => x.assign s.assignSeq (s.build.noteId id) f p tb) with assignSeq := s.assignSeq + 1 }

/-- `V.PRESSURE` on a voice (R182); nothing on a Free voice. -/
def Voice.setPressure (x : Voice) (w : Word) : Voice :=
  if x.vstate = .free then x else { x with pressure := x.pressure.setTarget (clamp15Target w) }

/-- `V.PITCH` on a voice (R183); nothing on a Free voice. -/
def Voice.setPitch (x : Voice) (f : Word) : Voice :=
  if x.vstate = .free then x else { x with frequency := x.frequency.setTarget f }

/-- `V.TIMBRE` on a voice (R184); nothing on a Free voice. -/
def Voice.setTimbre (x : Voice) (w : Word) : Voice :=
  if x.vstate = .free then x else { x with timbre := x.timbre.setTarget (clamp15Target w) }

/-- `V.RELEASE` on a voice (R185): only an Assigned voice is released. -/
def Voice.release (x : Voice) : Voice :=
  if x.vstate = .assigned then { x with env := x.env.noteOff, vstate := .releasing } else x

/-! ### The per-sample datapath (R186) -/

/-- The note-cleared branch of `V.SAMPLE` (R186). -/
def Voice.clearNote (x : Voice) : Voice :=
  { x with
    vstate := .free
    noteId := 0
    osc0 := x.osc0.resetPhase
    osc1 := x.osc1.resetPhase
    filtY := 0 }

/-- The cross-fade of the two oscillators (R186): s0 + floor(m15 · (s1 − s0) / 2^15). -/
def crossFade (m15 : Nat) (s0 s1 : Int) : Int := s0 + (m15 : Int) * (s1 - s0) / 2 ^ 15

/-- The amplitude gain g (R186): floor(`CFG_AMP_SCALE` · p[31:16] / 2^15). -/
def ampGain (amp : Half) (p : Word) : Nat := amp.toNat * top16 p / 2 ^ 15

/-- The filter's input x (R186), from the oscillator sample, the envelope level and the gain. -/
def voiceInput (sample : Int) (level : Word) (g : Nat) : Int :=
  sample * (top16 level : Int) / 2 ^ 15 * (g : Int) / 2 ^ 15

/-- The ramps and the oscillators of a sounding voice after one sample (R186): the ramps tick, the
frequency ramp sets both increments, both oscillators advance. -/
def Voice.advance (x : Voice) (srate : Word) : Voice :=
  { x with
    frequency := x.frequency.next
    pressure := x.pressure.next
    timbre := x.timbre.next
    osc0 := (x.osc0.setFreq x.frequency.next.cur srate).advance
    osc1 := (x.osc1.setFreq x.frequency.next.cur srate).advance }

/-- The oscillator sample s of a voice (R186), of the phases before they advance. -/
def Voice.mixedSample (x : Voice) (b : Config.Build) (mixActive : Word) : Int :=
  crossFade (top16 mixActive) (oscSample b (oscTable b 0) x.osc0.phase)
    (oscSample b (oscTable b 1) x.osc1.phase)

/-- A sounding voice after one sample (R186). -/
def Voice.sounded (s : State) (x : Voice) : Voice :=
  let z := x.advance s.srate
  let e := x.env.next s.envParams
  { z with
    env := e
    filtY := filterNext s.filtEn s.filtA x.filtY
      (voiceInput (x.mixedSample s.build s.mixActive) e.level (ampGain s.cfgAmpScale z.pressure.cur)) }

/-- `V.SAMPLE(v, n)` (R186). -/
def State.sampleVoice (s : State) (v n : Nat) : State :=
  let x := s.voice v
  if x.env.stage = .idle then s.setVoice v x.clearNote
  else
    let z := x.sounded s
    { s.setVoice v z with out := mixAddAll s.build s.out s.numCh.toNat n (filterOut z.filtY) }

/-- `V.SAMPLE(v, n)` for `k` samples from n on, ascending (R187). -/
def State.renderRun (v : Nat) : (k n : Nat) → State → State
  | 0, _, s => s
  | k + 1, n, s => State.renderRun v k (n + 1) (s.sampleVoice v n)

/-! ### Commands -/

/-- `V.ASSIGN v, id, f, p, tb` (R181). -/
def execVAssign (v : Octet) (id : Half) (f p tb : Word) (s : State) :
    Host.Outcome State Fault Refusal :=
  renderCommand (.vAssign v id f p tb) s <|
    if !s.voiceOk v then .error .badIndex else .ok (s.assignVoice v.toNat id f p tb)

/-- `V.PRESSURE v, x` (R182). -/
def execVPressure (v : Octet) (x : Word) (s : State) : Host.Outcome State Fault Refusal :=
  renderCommand (.vPressure v x) s <|
    if !s.voiceOk v then .error .badIndex else .ok (s.updVoice v.toNat fun y => y.setPressure x)

/-- `V.PITCH v, f` (R183). -/
def execVPitch (v : Octet) (f : Word) (s : State) : Host.Outcome State Fault Refusal :=
  renderCommand (.vPitch v f) s <|
    if !s.voiceOk v then .error .badIndex else .ok (s.updVoice v.toNat fun y => y.setPitch f)

/-- `V.TIMBRE v, x` (R184). -/
def execVTimbre (v : Octet) (x : Word) (s : State) : Host.Outcome State Fault Refusal :=
  renderCommand (.vTimbre v x) s <|
    if !s.voiceOk v then .error .badIndex else .ok (s.updVoice v.toNat fun y => y.setTimbre x)

/-- `V.RELEASE v` (R185). -/
def execVRelease (v : Octet) (s : State) : Host.Outcome State Fault Refusal :=
  renderCommand (.vRelease v) s <|
    if !s.voiceOk v then .error .badIndex else .ok (s.updVoice v.toNat Voice.release)

/-- `V.RENDER v, start, ns` (R187); the sum of the range check is taken without wrap. With `NUM_CH` = 0 and a
range inside `NUM_SAMP` the voice advances and nothing is written, as R187's own corner case says, and no third
cause faults, as R188 (c) says and as 30_encoding.md R94 (steps 4 to 6) has it; the corner case of R196 has it
fault there, by a check that no rule lists (DEDUCED, log 17). -/
def execVRender (v : Octet) (start ns : Word) (s : State) : Host.Outcome State Fault Refusal :=
  renderCommand (.vRender v start ns) s <|
    if !s.voiceOk v then .error .badIndex
    else if s.numSamp.toNat < start.toNat + ns.toNat then .error .badIndex
    else .ok (State.renderRun v.toNat ns.toNat start.toNat s)

end Sys2Proof.Machine
end

