-- ==== Sys2Proof/Machine/Events.lean ====
section
/-! DEFINITION. The note events and the voice allocator (47_events_allocator.md R205 to R213;
48_engine_system.md R228). -/

namespace Sys2Proof.Machine

/-- `Find(id)` (R205): the lowest slot in use that is not Free and holds `id`. -/
def State.find (s : State) (id : Half) : Option Nat :=
  s.slots.find? fun v => (s.voice v).vstate ≠ .free && (s.voice v).noteId = s.build.noteId id

/-- The lowest Free slot in use (R206 step 1). -/
def State.findFree (s : State) : Option Nat :=
  s.slots.find? fun v => (s.voice v).vstate = .free

/-- What the policy compares (R211): the age, or the envelope level. -/
def State.stealKey (s : State) (v : Nat) : Nat :=
  if s.stealPolicy then (s.voice v).env.level.toNat else (s.voice v).age.toNat

/-- The element of the list with the smallest key, the first of those that tie, starting from `best`. -/
def argMin (key : Nat → Nat) : (best : Nat) → List Nat → Nat
  | best, [] => best
  | best, v :: vs => argMin key (if key v < key best then v else best) vs

/-- `Victim()` (R211): the slot in use with the smallest key, ties to the lowest. -/
def State.victim (s : State) : Nat := argMin s.stealKey 0 s.slots

/-- Dispatch of `EV.NOTEON` (R206). -/
def State.dispatchNoteOn (s : State) (id : Half) (f p tb : Word) : State :=
  match s.find id with
  | some w => s.assignVoice w id f p tb
  | none =>
    match s.findFree with
    | some w => s.assignVoice w id f p tb
    | none => if s.stealEn then s.assignVoice s.victim id f p tb else s.setNoteDropped

/-- An operation on the voice that holds `id`; nothing if no voice does (R207 to R210). -/
def State.onHolder (s : State) (id : Half) (f : Voice → Voice) : State :=
  match s.find id with
  | some w => s.updVoice w f
  | none => s

/-- Dispatch of `EV.NOTEOFF` (R207). -/
def State.dispatchNoteOff (s : State) (id : Half) : State := s.onHolder id Voice.release

/-- Dispatch of `EV.PRESSURE` (R208). -/
def State.dispatchPressure (s : State) (id : Half) (x : Word) : State :=
  s.onHolder id fun y => y.setPressure x

/-- Dispatch of `EV.PITCH` (R209). -/
def State.dispatchPitch (s : State) (id : Half) (f : Word) : State :=
  s.onHolder id fun y => y.setPitch f

/-- Dispatch of `EV.TIMBRE` (R210). -/
def State.dispatchTimbre (s : State) (id : Half) (x : Word) : State :=
  s.onHolder id fun y => y.setTimbre x

/-- `Dispatch(w)` of a queued event (48_engine_system.md R223). -/
def State.dispatch (s : State) (e : Event) : State :=
  match e.kind with
  | .noteOn => s.dispatchNoteOn e.id e.a e.b e.c
  | .noteOff => s.dispatchNoteOff e.id
  | .pressure => s.dispatchPressure e.id e.a
  | .pitch => s.dispatchPitch e.id e.a
  | .timbre => s.dispatchTimbre e.id e.a

/-- An event command (R228): dispatched at once on the render port, pushed on the control port. -/
def eventCommand (e : Event) (s : State) : Host.Outcome State Fault Refusal :=
  match s.port with
  | .render => .next (s.onRender e.toInstr (.ok (s.dispatch e)))
  | .control => .next (s.evqPush e)

/-- `EV.NOTEON id, f, p, tb` (R206). -/
def execEvNoteon (id : Half) (f p tb : Word) (s : State) : Host.Outcome State Fault Refusal :=
  eventCommand ⟨.noteOn, id, f, p, tb⟩ s

/-- `EV.NOTEOFF id` (R207). -/
def execEvNoteoff (id : Half) (a b c : Word) (s : State) : Host.Outcome State Fault Refusal :=
  eventCommand ⟨.noteOff, id, a, b, c⟩ s

/-- `EV.PRESSURE id, x` (R208). -/
def execEvPressure (id : Half) (x b c : Word) (s : State) : Host.Outcome State Fault Refusal :=
  eventCommand ⟨.pressure, id, x, b, c⟩ s

/-- `EV.PITCH id, f` (R209). -/
def execEvPitch (id : Half) (f b c : Word) (s : State) : Host.Outcome State Fault Refusal :=
  eventCommand ⟨.pitch, id, f, b, c⟩ s

/-- `EV.TIMBRE id, x` (R210). -/
def execEvTimbre (id : Half) (x b c : Word) (s : State) : Host.Outcome State Fault Refusal :=
  eventCommand ⟨.timbre, id, x, b, c⟩ s

end Sys2Proof.Machine
end

