-- ==== Sys2Proof/Machine/Mixer.lean ====
section
/-! DEFINITION. The output buffer's geometry and the four mixer commands (46_mixer.md R195 to R200). -/

namespace Sys2Proof.Machine

/-- `MIX.CLEAR(nch, ns)` as an operation (R196). -/
def State.mixClear (s : State) (nch ns : Word) : State :=
  { s with numCh := nch, numSamp := ns, out := clearOut s.build s.out nch.toNat ns.toNat }

/-- The argument check of `MIX.CLEAR` and `RENDER` (R196, R222). -/
def State.renderArgsOk (s : State) (nch ns : Word) : Bool :=
  nch.toNat ≤ s.build.maxCh && ns.toNat ≤ s.maxblk.toNat

/-- `OUT[c][i]` lies in the current geometry (R198). -/
def State.inGeometry (s : State) (c : Octet) (i : Half) : Bool :=
  c.toNat < s.numCh.toNat && i.toNat < s.numSamp.toNat

/-- `MIX.CLEAR nch, ns` (R196). -/
def execMixClear (nch ns : Word) (s : State) : Host.Outcome State Fault Refusal :=
  renderCommand (.mixClear nch ns) s <|
    if !s.renderArgsOk nch ns then .error .renderArgs else .ok (s.mixClear nch ns)

/-- `MIX.ACC i, x` (R197). Its one check is on the sample index: with `NUM_CH` = 0 and a sample that exists it
completes and adds nothing, since a command whose own checks pass executes (30_encoding.md R94 steps 4 to 6); the
corner case of R196 has it fault there, by a check that no rule lists (DEDUCED, log 17). -/
def execMixAcc (i : Half) (x : Word) (s : State) : Host.Outcome State Fault Refusal :=
  renderCommand (.mixAcc i x) s <|
    if s.numSamp.toNat ≤ i.toNat then .error .badIndex
    else .ok { s with out := mixAddAll s.build s.out s.numCh.toNat i.toNat (sampleOperand x) }

/-- `MIX.READ c, i` (R198). -/
def execMixRead (c : Octet) (i : Half) (s : State) : Host.Outcome State Fault Refusal :=
  renderCommand (.mixRead c i) s <|
    if !s.inGeometry c i then .error .badIndex
    else .ok (s.setResult (readOut s.build s.out c.toNat i.toNat))

/-- `MIX.READSAT c, i` (R199). -/
def execMixReadsat (c : Octet) (i : Half) (s : State) : Host.Outcome State Fault Refusal :=
  renderCommand (.mixReadsat c i) s <|
    if !s.inGeometry c i then .error .badIndex
    else .ok (s.setResult (wordOfInt (sat16 (readOut s.build s.out c.toNat i.toNat).toInt)))

end Sys2Proof.Machine
end

