-- ==== Sys2Proof/Machine/Engine.lean ====
section
/-! DEFINITION. The engine sequence and the system commands (48_engine_system.md R220 to R230), with the
register map of 10_state.md R35. -/

namespace Sys2Proof.Machine

/-! ### PREPARE (R221) -/

/-- A voice slot after `PREPARE` (R221). -/
def Voice.prepare (x : Voice) (fs time : Word) (mode : RampMode) : Voice where
  vstate := .free
  noteId := 0
  age := 0
  osc0 := ⟨0, 0⟩
  osc1 := ⟨0, 0⟩
  env := ⟨.idle, 0, 0, 0⟩
  filtY := 0
  pressure := { x.pressure with tgt := 0 }.reset fs time mode
  timbre := { x.timbre with tgt := 0 }.reset fs time mode
  frequency := { x.frequency with tgt := 0 }.reset fs time mode

/-- A global ramp after `PREPARE` (R221): at the value `x` of its store word, with no glide. -/
def State.prepareGlobalRamp (s : State) (q : Ramp) (fs x : Word) : Ramp :=
  { q with tgt := x }.reset fs s.cfgRampT s.rampMode

/-- The derived registers refreshed from the global ramps (R221, R225): the filter coefficient, the
mix, the decay-ramp. -/
def State.refreshDerived (s : State) : State :=
  { s.loadFilterCoef s.grCutoff.cur s.srate with
    mixActive := clamp31 s.grMix.cur
    decayRampActive := s.grDecayRamp.cur }

/-- The engine registers, voices and global ramps `PREPARE` sets before it derives anything (R221). -/
def State.prepareUnits (s : State) (fs mb poly : Word) : State :=
  { s with
    srate := fs
    maxblk := mb
    poly := poly
    numCh := 0
    numSamp := 0
    assignSeq := 0
    voices := s.voices.map fun x => x.prepare fs s.cfgRampT s.rampMode
    grCutoff := s.prepareGlobalRamp s.grCutoff fs s.store.cutoff
    grMix := s.prepareGlobalRamp s.grMix fs (clamp31 s.store.mix)
    grDecayRamp := s.prepareGlobalRamp s.grDecayRamp fs s.store.decayRamp }

/-- The effect of a `PREPARE` whose arguments pass its checks (R221). -/
def State.prepare (s : State) (fs mb poly : Word) : State :=
  let t := (s.prepareUnits fs mb poly).loadEnvParams.refreshDerived.evqFlush
  { t with status := t.status.afterPrepare }

/-! ### The three steps of RENDER (R222 to R225) -/

/-- Every waiting event popped and dispatched, oldest first (R223). -/
def State.drain (s : State) : State := s.evq.foldl State.dispatch s.evqFlush

/-- Step begin of `RENDER(nch, ns)` (R223). -/
def State.renderBegin (s : State) (nch ns : Word) : State := (s.mixClear nch ns).drain

/-- Step body of `RENDER` (R224): the envelope snapshot, then every voice in pool order. -/
def State.renderBody (s : State) (ns : Word) : State :=
  s.slots.foldl (fun t v => State.renderRun v ns.toNat 0 t) s.loadEnvParams

/-- The global ramps retargeted from the store and ticked once per sample (R225). -/
def State.advanceGlobals (s : State) (ns : Word) : State :=
  { s with
    grCutoff := Ramp.ticks ns.toNat (s.grCutoff.setTarget s.store.cutoff)
    grMix := Ramp.ticks ns.toNat (s.grMix.setTarget (clamp31 s.store.mix))
    grDecayRamp := Ramp.ticks ns.toNat (s.grDecayRamp.setTarget s.store.decayRamp) }

/-- Step end of `RENDER` (R225). -/
def State.renderEnd (s : State) (ns : Word) : State := (s.advanceGlobals ns).refreshDerived

/-! ### The register map (10_state.md R35) -/

/-- The eight fields of a ramp, numbered from `base`; `STEP` in two words, the second its sign. -/
def rampRegs (base : Nat) (q : Ramp) : List (Nat × Word) :=
  [(base, q.cur), (base + 1, q.tgt), (base + 2, wordOfInt q.step.toInt),
    (base + 3, if q.step.toInt < 0 then 0xFFFFFFFF#32 else 0), (base + 4, q.cnt),
    (base + 5, q.steps), (base + 6, q.coef), (base + 7, q.mode.code)]

/-- The global registers by number (R35). -/
def State.globalRegs (s : State) : List (Nat × Word) :=
  [(0x0000, Config.idWord), (0x0001, s.status.word), (0x0002, s.faultCause.setWidth 32),
    (0x0003, s.faultW0), (0x0004, s.srate), (0x0005, s.maxblk), (0x0006, s.poly),
    (0x0007, s.numCh), (0x0008, s.numSamp), (0x0009, s.assignSeq), (0x000A, s.evqCount),
    (0x000B, s.result)] ++
  [(0x0010, s.cfgCtrl.setWidth 32), (0x0011, s.cfgRampT), (0x0012, s.cfgAmpScale.setWidth 32)] ++
  [(0x0020, s.store.cutoff), (0x0021, s.store.attack), (0x0022, s.store.decay),
    (0x0023, s.store.sustain), (0x0024, s.store.release), (0x0025, s.store.mix),
    (0x0026, s.store.decayRamp)] ++
  [(0x0030, s.envParams.alen), (0x0031, s.envParams.dlen), (0x0032, s.envParams.sus),
    (0x0033, s.envParams.rlen), (0x0034, s.filtA.setWidth 32), (0x0035, s.mixActive),
    (0x0036, s.decayRampActive)] ++
  rampRegs 0x0040 s.grCutoff ++ rampRegs 0x0048 s.grMix ++ rampRegs 0x0050 s.grDecayRamp

/-- The registers of a voice by number (R35). -/
def Voice.regs (x : Voice) : List (Nat × Word) :=
  [(0x0100, x.vstate.code), (0x0101, x.noteId.setWidth 32), (0x0102, x.age),
    (0x0110, x.osc0.phase), (0x0111, x.osc0.inc), (0x0112, x.osc1.phase), (0x0113, x.osc1.inc),
    (0x0120, x.env.stage.code), (0x0121, x.env.level), (0x0122, x.env.progress),
    (0x0123, x.env.relStart), (0x0130, x.filtY)] ++
  rampRegs 0x0140 x.pressure ++ rampRegs 0x0148 x.timbre ++ rampRegs 0x0150 x.frequency

/-- The register a `RDREG` names (R35, R229); `none` where R229 raises `F_BAD_INDEX`. -/
def State.readReg (s : State) (sel : Octet) (reg : Half) : Option Word :=
  if reg.toNat < 0x0100 then
    if sel = 0 then s.globalRegs.lookup reg.toNat else none
  else if sel.toNat < s.build.maxPoly then (s.voice sel.toNat).regs.lookup reg.toNat
  else none

/-! ### Commands -/

/-- `NOP` (R220). -/
def execNop (s : State) : Host.Outcome State Fault Refusal := renderCommand .nop s (.ok s)

/-- `PREPARE fs, mb, poly` (R221), its checks in the rule's order. -/
def execPrepare (fs mb poly : Word) (s : State) : Host.Outcome State Fault Refusal :=
  renderCommand (.prepare fs mb poly) s <|
    if fs = 0 then .error .cfgSrate
    else if poly = 0 ∨ s.build.maxPoly < poly.toNat then .error .cfgPoly
    else if mb = 0 ∨ s.build.maxBlock < mb.toNat then .error .cfgBlock
    else .ok (s.prepare fs mb poly)

/-- `RENDER nch, ns` (R222): the argument check and the begin step. The body and end steps are the
render agent's next two (20_memory.md R71, R74), which `step` takes. -/
def execRender (nch ns : Word) (s : State) : Host.Outcome State Fault Refusal :=
  renderCommand (.render nch ns) s <|
    if !s.renderArgsOk nch ns then .error .renderArgs
    else .ok { s.renderBegin nch ns with phase := .body ns }

/-- `WRCFG i, x` (R226). -/
def execWrcfg (i : Half) (x : Word) (s : State) : Host.Outcome State Fault Refusal :=
  renderCommand (.wrcfg i x) s <|
    match i.toNat with
    | 0 => .ok { s with cfgCtrl := x.setWidth 4 }
    | 1 => .ok { s with cfgRampT := x }
    | 2 => .ok { s with cfgAmpScale := clamp15 x }
    | 3 => .ok { s with status := s.status.clearSticky x }
    | _ => .error .badIndex

/-- `RDREG sel, reg` (R229). While the block is halted it executes if it would not fault, and is
ignored otherwise (R253). -/
def execRdreg (sel : Octet) (reg : Half) (s : State) : Host.Outcome State Fault Refusal :=
  match s.port, s.readReg sel reg with
  | .control, _ => .next s.setCtlIllegal
  | .render, some w => .next (s.setResult w)
  | .render, none => .next (s.onRender (.rdreg sel reg) (.error .badIndex))

/-- `SETGLOBAL i, x` (R227): on the control port alone; illegal on the render port. -/
def execSetglobal (i : Half) (x : Word) (s : State) : Host.Outcome State Fault Refusal :=
  match s.port with
  | .render => .next (s.illegalOnRender (encode (.setglobal i x)).w0)
  | .control =>
    .next (if 6 < i.toNat then s.setCtlIllegal else { s with store := s.store.set i.toNat x })

end Sys2Proof.Machine
end

