-- ==== Sys2Proof/Machine/Dispatch.lean ====
section
/-! DEFINITION. One arm per command of the opcode table (30_encoding.md R93), each a direct call of its
meaning. -/

namespace Sys2Proof.Machine

/-- The meaning of a command, on the port whose turn it is. -/
def exec (i : Instr) (s : State) : Host.Outcome State Fault Refusal :=
  match i with
  | .nop => Sys2Proof.Machine.execNop s
  | .prepare fs mb poly => Sys2Proof.Machine.execPrepare fs mb poly s
  | .render nch ns => Sys2Proof.Machine.execRender nch ns s
  | .wrcfg k x => Sys2Proof.Machine.execWrcfg k x s
  | .rdreg sel reg => Sys2Proof.Machine.execRdreg sel reg s
  | .setglobal k x => Sys2Proof.Machine.execSetglobal k x s
  | .evNoteon id f p tb => Sys2Proof.Machine.execEvNoteon id f p tb s
  | .evNoteoff id a b c => Sys2Proof.Machine.execEvNoteoff id a b c s
  | .evPressure id x b c => Sys2Proof.Machine.execEvPressure id x b c s
  | .evPitch id f b c => Sys2Proof.Machine.execEvPitch id f b c s
  | .evTimbre id x b c => Sys2Proof.Machine.execEvTimbre id x b c s
  | .wtRead t k => Sys2Proof.Machine.execWtRead t k s
  | .oscSetfreq v o f fs => Sys2Proof.Machine.execOscSetfreq v o f fs s
  | .oscNext v o => Sys2Proof.Machine.execOscNext v o s
  | .oscReset v o => Sys2Proof.Machine.execOscReset v o s
  | .envNoteon v => Sys2Proof.Machine.execEnvNoteon v s
  | .envNoteoff v => Sys2Proof.Machine.execEnvNoteoff v s
  | .envNext v => Sys2Proof.Machine.execEnvNext v s
  | .envIsactive v => Sys2Proof.Machine.execEnvIsactive v s
  | .envLoadp => Sys2Proof.Machine.execEnvLoadp s
  | .rmpSettarget sel r x => Sys2Proof.Machine.execRmpSettarget sel r x s
  | .rmpReset sel r fs time => Sys2Proof.Machine.execRmpReset sel r fs time s
  | .rmpNext sel r => Sys2Proof.Machine.execRmpNext sel r s
  | .rmpGetcur sel r => Sys2Proof.Machine.execRmpGetcur sel r s
  | .fltCoef cutoff fs => Sys2Proof.Machine.execFltCoef cutoff fs s
  | .fltNext v x => Sys2Proof.Machine.execFltNext v x s
  | .fltClear v => Sys2Proof.Machine.execFltClear v s
  | .vAssign v id f p tb => Sys2Proof.Machine.execVAssign v id f p tb s
  | .vPressure v x => Sys2Proof.Machine.execVPressure v x s
  | .vPitch v f => Sys2Proof.Machine.execVPitch v f s
  | .vTimbre v x => Sys2Proof.Machine.execVTimbre v x s
  | .vRelease v => Sys2Proof.Machine.execVRelease v s
  | .vRender v start ns => Sys2Proof.Machine.execVRender v start ns s
  | .mixClear nch ns => Sys2Proof.Machine.execMixClear nch ns s
  | .mixAcc k x => Sys2Proof.Machine.execMixAcc k x s
  | .mixRead c k => Sys2Proof.Machine.execMixRead c k s
  | .mixReadsat c k => Sys2Proof.Machine.execMixReadsat c k s

end Sys2Proof.Machine
end

