-- ==== Sys2Proof/Machine/Sequence.lean ====
section
/-! DEFINITION. What a step of the block is made of: the command a port presents, the end of a command
and of a turn, the body and end steps of a `RENDER` in progress (20_memory.md R70, R71, R74), the
hardware reset (70_reset_and_hazards.md R280), the command a step executes, and the observers of a state:
the fault line (60_exceptions.md R255), the audio read-out (R70 (c), R75), the delivered block and the end of
a run (R283). -/

namespace Sys2Proof.Machine

/-- The commands that are still to be presented on the port whose turn it is (R70). -/
def State.portIn (s : State) : List Command :=
  match s.port with
  | .render => s.renderIn
  | .control => s.controlIn

/-- The command the port presents, if any (R70). -/
def State.nextCommand (s : State) : Option Command := s.portIn.head?

/-- The turn is over. -/
def State.endTurn (s : State) : State := { s with turns := s.turns.tail }

/-- The port's command has completed, or has been taken into a `RENDER` in progress: the port presents
the next one. -/
def State.retire (s : State) : State :=
  match s.port with
  | .render => { s with renderIn := s.renderIn.tail }
  | .control => { s with controlIn := s.controlIn.tail }

/-- After a command: it is retired and the turn is over. -/
def finishCommand (r : Host.Outcome State Fault Refusal) : Host.Outcome State Fault Refusal :=
  match r with
  | .next t => .next t.retire.endTurn
  | .fault f => .fault f
  | .refused f => .refused f

/-- The port whose turn it is executes the word `w` (30_encoding.md R94, R96): the command it decodes
to, or the outcome of an illegal word. -/
def execWord (run : Instr → State → Host.Outcome State Fault Refusal) (w : Command) (s : State) :
    Host.Outcome State Fault Refusal :=
  match decode w with
  | some i => run i s
  | none => .next (s.illegal w.w0)

/-- The body step of the `RENDER` in progress (R74, R224); the end step is next. -/
def State.bodyStep (s : State) (ns : Word) : State :=
  { s.renderBody ns with phase := .finish ns }

/-- The end step of the `RENDER` in progress (R74, R225); the `RENDER` has completed, its block is the audio
sink's to read (R75), and the render port is free again. -/
def State.finishStep (s : State) (ns : Word) : State :=
  { s.renderEnd ns with phase := .idle, rendered := true }

/-- Reset (R280): every register, the queue and the buffer as after reset, a command in progress
abandoned. The block stays the one that was built (log 12). What the ports have not presented yet, and the
interleaving, are inputs and stay (log 10). -/
def State.hardwareReset (s : State) : State :=
  { State.resetOf s.build with renderIn := s.renderIn, controlIn := s.controlIn, turns := s.turns }

/-- The port that R93 lists first for the command `w` decodes to; the render port for a word that is no
command (log 13). -/
def commandPort (w : Command) : Port :=
  match decode w with
  | some i => i.ports.headD .render
  | none => .render

/-- Word `w` placed first on its port, that port's agent taking the next step. -/
def State.present (s : State) (w : Command) : State :=
  match commandPort w with
  | .render =>
    { s with turns := .render :: s.turns, renderIn := w :: s.renderIn, phase := .idle }
  | .control => { s with turns := .control :: s.turns, controlIn := w :: s.controlIn }

/-! ### What a step executes -/

/-- The command the next step executes: the one its agent's port presents, if that is a command; none at a
body, an end or a reset step, and none for an illegal word (R71, R74). -/
def State.executes (s : State) : Option Instr :=
  match s.turns, s.phase with
  | .control :: _, _ => s.nextCommand.bind decode
  | .render :: _, .idle => s.nextCommand.bind decode
  | _, _ => none

/-- The next step is the end step of a `RENDER` (R74). -/
def State.atRenderEnd (s : State) : Bool :=
  match s.turns, s.phase with
  | .render :: _, .finish _ => true
  | _, _ => false

/-! ### Observers -/

/-- The fault line (R255). -/
def State.faultLine (s : State) : Bool := s.status.halted

/-- What the audio sink reads for channel `c`, sample `n` (R70 (c), R199): `sat16` of the word, inside
the current geometry, between the end step of one `RENDER` and the begin step of the next; at any other time
the read has no meaning (R75; log 7). -/
def State.audioRead (s : State) (c n : Nat) : Option Int :=
  if s.rendered = true ∧ s.phase = .idle ∧ c < s.numCh.toNat ∧ n < s.numSamp.toNat then
    some (sat16 (readOut s.build s.out c n).toInt)
  else none

/-- The words of the current geometry, channel by channel: what a completed `RENDER` delivers (R283
(i)). -/
def State.block (s : State) : List (List Word) :=
  (List.range s.numCh.toNat).map fun c =>
    (List.range s.numSamp.toNat).map fun n => readOut s.build s.out c n

/-- The run has ended (R283): both command sequences are exhausted and no command or `RENDER` is in
progress. -/
def State.runEnded (s : State) : Prop :=
  s.renderIn = [] ∧ s.controlIn = [] ∧ s.phase = .idle

end Sys2Proof.Machine
end

