-- ==== Sys2Proof/Machine/Step.lean ====
section
/-! DEFINITION. One atomic step of the block (20_memory.md R71, R74; 70_reset_and_hazards.md R280), and
how the host places a command. -/

namespace Sys2Proof.Machine

/-- One atomic step: the next turn of the interleaving is taken by the render agent, the control agent
or the reset input. With no turn left nothing happens: the block never acts by itself (R280, R283). -/
def step (s : State) : Host.Outcome State Fault Refusal :=
  match s.turns with
  | [] => .next s
  | .reset :: _ => .next s.hardwareReset.endTurn
  | .control :: _ =>
    match s.nextCommand with
    | none => .next s.endTurn
    | some w => finishCommand (execWord exec w s)
  | .render :: _ =>
    match s.phase with
    | .body ns => .next (s.bodyStep ns).endTurn
    | .finish ns => .next (s.finishStep ns).endTurn
    | .idle =>
      match s.nextCommand with
      | none => .next s.endTurn
      | some w => finishCommand (execWord exec w s)

/-- `s` with the command whose low `nbits` bits are `w`'s placed first on the port that R93 lists first
for it, that port's agent taking the next step; on the render port no `RENDER` is in progress, or the
port would not take the command. -/
def State.withFetchWord (s : State) (nbits w : Nat) : State :=
  s.present (Command.ofNat (w % 2 ^ nbits))

end Sys2Proof.Machine
end

