-- ==== Sys2Proof/Machine/Run.lean ====
section
/-! DEFINITION. What can be observed of a run (70_reset_and_hazards.md R283): the blocks its completed
`RENDER`s deliver, the response words, the final state, the fault line. -/

namespace Sys2Proof.Machine

/-- A command `i` executed on the render port, from `s` to `t`, delivers a response word: it is one of the
commands with an entry under "returns" in 30_encoding.md R93, and it had its effect (R252, R253). A `RDREG`
has its effect, halted or not, exactly where it names a register. -/
def responds (i : Instr) (s t : State) : Bool :=
  match i with
  | .rdreg sel reg => (s.readReg sel reg).isSome
  | .wtRead _ _ | .oscNext _ _ | .envNext _ | .envIsactive _ | .rmpNext _ _ | .rmpGetcur _ _
  | .fltNext _ _ | .mixRead _ _ | .mixReadsat _ _ => !t.status.halted
  | .nop | .prepare _ _ _ | .render _ _ | .wrcfg _ _ | .setglobal _ _
  | .evNoteon _ _ _ _ | .evNoteoff _ _ _ _ | .evPressure _ _ _ _ | .evPitch _ _ _ _
  | .evTimbre _ _ _ _ | .oscSetfreq _ _ _ _ | .oscReset _ _ | .envNoteon _ | .envNoteoff _
  | .envLoadp | .rmpSettarget _ _ _ | .rmpReset _ _ _ _ | .fltCoef _ _ | .fltClear _
  | .vAssign _ _ _ _ _ | .vPressure _ _ | .vPitch _ _ | .vTimbre _ _ | .vRelease _
  | .vRender _ _ _ | .mixClear _ _ | .mixAcc _ _ => false

/-- The response word of a step from `s` to `t`, if it delivers one (R283 (ii)). -/
def State.response (s t : State) : List Word :=
  match s.port, s.executes with
  | .render, some i => if responds i s t then [t.result] else []
  | _, _ => []

/-- The block of a step from `s` to `t`, if it is the end step of a `RENDER`: the words of `OUT` as they
stand after it (R283 (i)). -/
def State.delivery (s t : State) : List (List (List Word)) :=
  if s.atRenderEnd then [t.block] else []

/-- The observable result of a run (R283). -/
structure Observed where
  /-- (i) the words of each completed `RENDER`, channel by channel, in order -/
  blocks : List (List (List Word))
  /-- (ii) the response words, in render-port order -/
  responses : List Word
  /-- (iii) -/
  final : State
  /-- (iv) -/
  faultLine : Bool
  deriving DecidableEq, Repr

/-- What is observed of the next `k` steps. A step that stops ends the observation; none does
(`Obligations.EveryStepHasAnOutcome`). -/
def observe : (k : Nat) → State → Observed
  | 0, s => ⟨[], [], s, s.faultLine⟩
  | k + 1, s =>
    match step s with
    | .next t =>
      let o := observe k t
      { o with blocks := s.delivery t ++ o.blocks, responses := s.response t ++ o.responses }
    | .fault _ | .refused _ => ⟨[], [], s, s.faultLine⟩

/-- The samples the audio sink hears of the observed blocks (R199, R283 (i)). -/
def Observed.heard (o : Observed) : List (List (List Int)) :=
  o.blocks.map fun b => b.map fun c => c.map fun w => sat16 w.toInt

/-- A run (R283) of the block built with `b`: from reset, with the commands `r` and `c` presented on the two
ports, interleaved as `ts` says. It has ended where its final state satisfies `State.runEnded`. -/
def observeRun (b : Config.Build) (r c : List Command) (ts : List Turn) : Observed :=
  observe ts.length { State.resetOf b with renderIn := r, controlIn := c, turns := ts }

end Sys2Proof.Machine
end

