-- ==== Sys2Proof/Safety.lean ====
section
/-! DEFINITION. The terms the claims use: when a port executes a command, what a ramp and a state keep
along every run (10_state.md R37), what direct unit commands are (R37, 70_reset_and_hazards.md R289),
and the opcode map as masks and matches (30_encoding.md R91, R93). -/

namespace Sys2Proof.Machine

/-! ### When the render port executes a command (30_encoding.md R94) -/

/-- The render port is about to execute a command, and the block is not halted. -/
abbrev State.accepting (s : State) : Prop := s.port = .render ∧ s.status.halted = false

/-- As `accepting`, and the block is prepared. -/
abbrev State.ready (s : State) : Prop := s.accepting ∧ s.status.prepared = true

/-! ### What a command leaves -/

/-- What a fault of code `c` on a command whose first word is `w0` leaves (60_exceptions.md R252): three
registers written, nothing else. -/
def State.faulted (s : State) (c : Octet) (w0 : Word) : State :=
  { s with
    faultCause := c
    faultW0 := w0
    status := { s.status with halted := true } }

/-- `t` is `s` but for voice slot `v` and the response word. -/
structure State.OnlySlot (s t : State) (v : Nat) : Prop where
  rest : t = { s with voices := t.voices, result := t.result }
  slots : t.voices.length = s.voices.length
  others : ∀ w, w ≠ v → t.voice w = s.voice w

/-- `t` is `s` but for the ramp `q` and the response word. -/
structure State.OnlyRamp (s t : State) (q : RampRef) : Prop where
  rest : t = { s with
    voices := t.voices
    grCutoff := t.grCutoff
    grMix := t.grMix
    grDecayRamp := t.grDecayRamp
    result := t.result }
  slots : t.voices.length = s.voices.length
  ramps : ∀ r, r ≠ q → t.ramp r = s.ramp r
  voices : ∀ w, t.voice w = { s.voice w with
    pressure := (t.voice w).pressure
    timbre := (t.voice w).timbre
    frequency := (t.voice w).frequency }

/-- The words of the parameter store by index (10_state.md R26). -/
def Store.words (t : Store) : List Word :=
  [t.cutoff, t.attack, t.decay, t.sustain, t.release, t.mix, t.decayRamp]

/-- The fields of a ramp by field number (10_state.md R35), `STEP` as the two words of its 64-bit sign
extension. -/
def Ramp.fields (q : Ramp) : List Word :=
  [q.cur, q.tgt, (q.step.signExtend 64).extractLsb' 0 32, (q.step.signExtend 64).extractLsb' 32 32,
    q.cnt, q.steps, q.coef, match q.mode with | .linear => 0 | .exponential => 1]

/-! ### Ramps -/

/-- A ramp at the value `x`, freshly reset for the rate `fs` and the time `time` (43_ramp.md R156). -/
structure Ramp.FreshAt (q : Ramp) (x fs time : Word) (mode : RampMode) : Prop where
  cur : q.cur = x
  tgt : q.tgt = x
  step : q.step = 0
  cnt : q.cnt = 0
  steps : q.steps.toNat = min (2 ^ 32 - 1) (time.toNat * fs.toNat / 2 ^ 16)
  coef : q.coef.toNat = if q.steps.toNat ≤ 1 then 2 ^ 31 else max 1 (2 ^ 31 / q.steps.toNat)
  mode : q.mode = mode

/-- What every ramp keeps (R157, R158): the coefficient is in (0, 1], and the ticks left of a linear ramp
do not pass the target. -/
structure Ramp.Ok (q : Ramp) : Prop where
  coefPos : 0 < q.coef.toNat
  coefLe : q.coef.toNat ≤ one31
  heading : q.mode = .linear → q.cnt ≠ 0 →
    (0 ≤ q.step.toInt ∧ q.cur.toNat + q.step.toInt * q.cnt.toNat ≤ q.tgt.toNat) ∨
      (q.step.toInt ≤ 0 ∧ (q.tgt.toNat : Int) ≤ q.cur.toNat + q.step.toInt * q.cnt.toNat)

/-- `b` lies between `a` and `c`, inclusive. -/
abbrev between (a b c : Int) : Prop := (a ≤ b ∧ b ≤ c) ∨ (c ≤ b ∧ b ≤ a)

/-! ### The invariant of every step -/

/-- What every envelope keeps (42_envelope.md R143, R146): levels in [0, 1], silence in Idle, a
progress that can still be counted. -/
structure Env.Ok (e : Env) : Prop where
  level : e.level.toNat ≤ one31
  relStart : e.relStart.toNat ≤ one31
  idle : e.stage = .idle → e.level = 0
  progress : e.progress.toNat < 2 ^ 32 - 1

/-- What every voice slot keeps. -/
structure Voice.Ok (x : Voice) : Prop where
  env : x.env.Ok
  pressure : x.pressure.Ok
  timbre : x.timbre.Ok
  frequency : x.frequency.Ok

/-- What every state of a run keeps, whatever commands are presented, direct unit commands among
them. -/
structure State.Inv (s : State) : Prop where
  /-- the build parameters are in their legal ranges (00_scope.md R5) -/
  legal : s.build.Legal
  /-- `MAX_POLY` voice slots are built (R21) -/
  slots : s.voices.length = s.build.maxPoly
  /-- the output buffer is in canonical form, and lists words of the buffer only (20_memory.md R62) -/
  out : OutBuf.wf s.build s.out
  /-- 0 .. `EVQ_DEPTH` events wait (R24, R38) -/
  evq : s.evq.length ≤ s.build.evqDepth
  /-- `POLY` ≤ `MAX_POLY` (R24) -/
  poly : s.poly.toNat ≤ s.build.maxPoly
  maxblk : s.maxblk.toNat ≤ s.build.maxBlock
  /-- `NUM_CH` ≤ `MAX_CH` (R24) -/
  numCh : s.numCh.toNat ≤ s.build.maxCh
  /-- `NUM_SAMP` ≤ `MAXBLK` (46_mixer.md R200) -/
  numSamp : s.numSamp.toNat ≤ s.maxblk.toNat
  /-- once prepared, `SRATE` > 0 and `POLY` ≥ 1 (R24) -/
  prepared : s.status.prepared = true → s.srate ≠ 0 ∧ s.poly ≠ 0 ∧ s.maxblk ≠ 0
  /-- the cause is that of the fault that halted the block, 0 if none (R23) -/
  halted : s.status.halted = true ↔ s.faultCause ≠ 0
  cause : s.faultCause.toNat ≤ 8
  noFault : s.status.halted = false → s.faultW0 = 0
  /-- a `RENDER` in progress belongs to a prepared block that runs (60_exceptions.md R252) -/
  phase : s.phase ≠ .idle → s.status.prepared = true ∧ s.status.halted = false
  body : ∀ ns, s.phase = .body ns → ns = s.numSamp
  finish : ∀ ns, s.phase = .finish ns → ns = s.numSamp
  /-- a block that completed was rendered by a prepared block -/
  rendered : s.rendered = true → s.status.prepared = true
  /-- `ENV_SUS` ≤ ONE31 (R27, R37 (b)) -/
  sus : s.envParams.sus.toNat ≤ one31
  mixActive : s.mixActive.toNat ≤ one31
  filtA : s.filtA.toNat ≤ one15
  amp : s.cfgAmpScale.toNat ≤ one15
  voices : ∀ v, v < s.voices.length → (s.voice v).Ok
  /-- slots at or above `POLY` are Free (R37 (g)) -/
  unused : ∀ v, v < s.voices.length → s.poly.toNat ≤ v → (s.voice v).vstate = .free
  cutoff : s.grCutoff.Ok
  mix : s.grMix.Ok
  decayRamp : s.grDecayRamp.Ok

/-! ### The invariant of a run without state-changing direct unit commands (R37) -/

/-- The state-changing direct unit commands of R37: every unit command but those that write `RESULT` only,
which are `WT.READ`, `MIX.READ` and `MIX.READSAT` of R37's list, and `ENV.ISACTIVE` (42_envelope.md R144) and
`RMP.GETCUR` (43_ramp.md R159). -/
def isDirect : Instr → Bool
  | .nop | .prepare _ _ _ | .render _ _ | .wrcfg _ _ | .rdreg _ _ | .setglobal _ _
  | .evNoteon _ _ _ _ | .evNoteoff _ _ _ _ | .evPressure _ _ _ _ | .evPitch _ _ _ _
  | .evTimbre _ _ _ _ | .wtRead _ _ | .mixRead _ _ | .mixReadsat _ _
  | .envIsactive _ | .rmpGetcur _ _ => false
  | .oscSetfreq _ _ _ _ | .oscNext _ _ | .oscReset _ _
  | .envNoteon _ | .envNoteoff _ | .envNext _ | .envLoadp
  | .rmpSettarget _ _ _ | .rmpReset _ _ _ _ | .rmpNext _ _
  | .fltCoef _ _ | .fltNext _ _ | .fltClear _
  | .vAssign _ _ _ _ _ | .vPressure _ _ | .vPitch _ _ | .vTimbre _ _ | .vRelease _
  | .vRender _ _ _ | .mixClear _ _ | .mixAcc _ _ => true

/-- The next step executes no state-changing direct unit command. The control port executes none: it
discards them (30_encoding.md R96). -/
def State.playsNext (s : State) : Bool :=
  s.port = .control || !s.executes.any isDirect

/-- R37 (c), (d), (e): a Free voice is silent and at phase 0, the two oscillators of a voice run
together, and no two voices in use hold one identifier. -/
structure State.PlayInv (s : State) : Prop where
  free : ∀ v, v < s.voices.length → (s.voice v).vstate = .free →
    (s.voice v).env.stage = .idle ∧ (s.voice v).osc0.phase = 0 ∧ (s.voice v).filtY = 0
  together : ∀ v, v < s.voices.length → (s.voice v).osc0 = (s.voice v).osc1
  oneToOne : ∀ v w, v < s.voices.length → w < s.voices.length → v < s.poly.toNat → w < s.poly.toNat →
    v ≠ w → (s.voice v).vstate ≠ .free → (s.voice w).vstate ≠ .free →
    (s.voice v).noteId ≠ (s.voice w).noteId

/-- Slot `v` is in use, not Free, and holds `id` (47_events_allocator.md R205). -/
def State.holds (s : State) (v : Nat) (id : Half) : Bool :=
  v < s.poly.toNat && (s.voice v).vstate ≠ .free && (s.voice v).noteId = s.build.noteId id

/-! ### The opcode map (30_encoding.md R91, R93) -/

/-- The `match` and `mask` over W0 of every row of the opcode table, in its order. -/
def opcodeRows : List (Word × Word) :=
  [(0x00000000, 0xFFFFFFFF), (0x01000000, 0xFFFFFFFF), (0x02000000, 0xFFFFFFFF),
    (0x03000000, 0xFFFF0000), (0x04000000, 0xFF000000), (0x10000000, 0xFFFF0000)] ++
  [(0x20000000, 0xFFFF0000), (0x21000000, 0xFFFF0000), (0x22000000, 0xFFFF0000),
    (0x23000000, 0xFFFF0000), (0x24000000, 0xFFFF0000)] ++
  [(0x30000000, 0xFF000000), (0x40000000, 0xFF000000), (0x41000000, 0xFF000000),
    (0x42000000, 0xFF000000)] ++
  [(0x50000000, 0xFF00FFFF), (0x51000000, 0xFF00FFFF), (0x52000000, 0xFF00FFFF),
    (0x53000000, 0xFF00FFFF), (0x54000000, 0xFFFFFFFF)] ++
  [(0x60000000, 0xFF000000), (0x61000000, 0xFF000000), (0x62000000, 0xFF000000),
    (0x63000000, 0xFF000000)] ++
  [(0x70000000, 0xFFFFFFFF), (0x71000000, 0xFF00FFFF), (0x72000000, 0xFF00FFFF)] ++
  [(0x80000000, 0xFF000000), (0x81000000, 0xFF00FFFF), (0x82000000, 0xFF00FFFF),
    (0x83000000, 0xFF00FFFF), (0x84000000, 0xFF00FFFF), (0x85000000, 0xFF00FFFF)] ++
  [(0x90000000, 0xFFFFFFFF), (0x91000000, 0xFFFF0000), (0x92000000, 0xFF000000),
    (0x93000000, 0xFF000000)]

end Sys2Proof.Machine
end

