-- ==== Sys2Proof/Certificates/Slice0/Obligations.lean ====
section
/-! DEFINITION. The statements for the provers. Each is a property of the machine of `Sys2Proof.Machine`,
written from the numbered rules of spec/; `OBLIGATIONS.json` lists them with the rules they cite. A command
on the render port is stated for every state in which that port executes it (`State.ready`: the render
port's turn, not halted, prepared; `State.accepting` where the command needs no `PREPARED`). Words W0 are
packed from opcode, `sel` and `arg16`; `State.faulted c w` is fault entry with code `c` (R252). -/

section Statements

open Sys2Proof Sys2Proof.Machine

/-! ### Encoding (30_encoding.md) -/

/-- Every command is what its encoding decodes to, with every operand at every value (R90, R91, R93). -/
def Obligations.DecodeEncode : Prop := ∀ i : Instr, decode (encode i) = some i

/-- A word is a command exactly when W0 selects a row of the opcode map, `W0 & mask = match` (R91), and
then it has the first word of the command's encoding; an event keeps the whole word (R38, R228). -/
def Obligations.DecodeSelectsRow : Prop :=
  ∀ w : Command,
    ((∃ i, decode w = some i) ↔ ∃ row ∈ opcodeRows, w.w0 &&& row.2 = row.1) ∧
    ∀ i, decode w = some i →
      (encode i).w0 = w.w0 ∧ (i.ports = [.control, .render] → encode i = w)

/-- Words of the spec's examples decode to the commands they stand for (R98, R125, R181, R198, R229). -/
def Obligations.ExampleWordsDecode : Prop :=
  decode ⟨0x01000000, 0x0000BB80, 0x00000200, 0x00000001⟩ = some (.prepare 48000 512 1) ∧
  decode ⟨0x20000001, 0x01B80000, 0x00008000, 0⟩ = some (.evNoteon 1 0x01B80000 0x8000 0) ∧
  decode ⟨0x30020040, 0, 0, 0⟩ = some (.wtRead 2 64) ∧
  decode ⟨0x04030121, 0, 0, 0⟩ = some (.rdreg 3 0x0121) ∧
  decode ⟨0x80000001, 0x01B80000, 0x00008000, 0⟩ = some (.vAssign 0 1 0x01B80000 0x8000 0) ∧
  decode ⟨0x92010005, 0, 0, 0⟩ = some (.mixRead 1 5) ∧
  decode ⟨0x94000000, 0, 0, 0⟩ = none ∧
  decode ⟨0x00000001, 0, 0, 0⟩ = none

/-! ### Steps (20_memory.md, 70_reset_and_hazards.md) -/

/-- A port whose turn it is executes the command it presents: the step is `exec` of the decoded command,
after which the port presents its next command and the turn has passed (R70, R71). -/
def Obligations.StepRunsDecodedCommand : Prop :=
  ∀ (s : State) (w : Command) (ws : List Command) (ts : List Turn) (i : Instr),
    decode w = some i →
      (s.turns = .render :: ts → s.phase = .idle → s.renderIn = w :: ws →
        ∃ t, exec i s = .next t ∧ step s = .next { t with renderIn := ws, turns := ts }) ∧
      (s.turns = .control :: ts → s.controlIn = w :: ws →
        ∃ t, exec i s = .next t ∧ step s = .next { t with controlIn := ws, turns := ts })

/-- A word that is no command: `F_ILLEGAL_CMD` on the render port, ignored there while halted, discarded
with `CTL_ILLEGAL` on the control port (R94 steps 1 and 2, R95, R96). -/
def Obligations.IllegalWords : Prop :=
  ∀ (s : State) (w : Command) (ws : List Command) (ts : List Turn), decode w = none →
    (s.turns = .render :: ts → s.phase = .idle → s.renderIn = w :: ws →
      step s = .next { (if s.status.halted then s else s.faulted 0x01 w.w0) with
        renderIn := ws, turns := ts }) ∧
    (s.turns = .control :: ts → s.controlIn = w :: ws →
      step s = .next { s with
        status := { s.status with ctlIllegal := true }, controlIn := ws, turns := ts })

/-- Every command in every state has an outcome, and so has every step (R295); none writes a build
parameter (R5). -/
def Obligations.EveryStepHasAnOutcome : Prop :=
  (∀ (i : Instr) (s : State), ∃ t, exec i s = .next t ∧ t.build = s.build) ∧
    ∀ s : State, ∃ t, step s = .next t ∧ t.build = s.build

/-- The reset input (R280): every register, the queue and the buffer at their reset values, whatever was
in progress. That the commands not yet presented and the turns to come stay is the model's choice (logs 1
and 10). -/
def Obligations.ResetStep : Prop :=
  ∀ (s : State) (ts : List Turn), s.turns = .reset :: ts →
    step s = .next { State.resetOf s.build with
      renderIn := s.renderIn, controlIn := s.controlIn, turns := ts }

/-- The reset values of R36, register by register, whatever the build; and the build parameters of this
hardware, which are the defaults of R5. -/
def Obligations.ResetValues : Prop :=
  ∀ b : Config.Build,
  let s := State.resetOf b
  let r : Ramp := ⟨0, 0, 0, 0, 0, 0x80000000, .linear⟩
  s.status = ⟨false, false, false, false, false⟩ ∧ s.faultCause = 0 ∧ s.faultW0 = 0 ∧
  s.srate = 0 ∧ s.maxblk = 0 ∧ s.poly = 0 ∧ s.numCh = 0 ∧ s.numSamp = 0 ∧ s.assignSeq = 0 ∧
  s.evqCount = 0 ∧ s.result = 0 ∧
  s.cfgCtrl = 0x4 ∧ s.cfgRampT = 0x00000400 ∧ s.cfgAmpScale = 0x1000 ∧
  s.store.words = [0x03E80000, 0x00000400, 0x00002000, 0x60000000, 0x00004000, 0, 0] ∧
  s.envParams = ⟨0, 0, 0, 0⟩ ∧ s.filtA = 0 ∧ s.mixActive = 0 ∧ s.decayRampActive = 0 ∧
  s.grCutoff = r ∧ s.grMix = r ∧ s.grDecayRamp = r ∧
  s.voices.length = b.maxPoly ∧
  (∀ v, v < b.maxPoly → s.voice v = ⟨.free, 0, 0, ⟨0, 0⟩, ⟨0, 0⟩, ⟨.idle, 0, 0, 0⟩, 0, r, r, r⟩) ∧
  s.evq = [] ∧ (∀ c n, readOut s.build s.out c n = 0) ∧ s.phase = .idle ∧
  s.build = b ∧ State.reset = State.resetOf
    { tableLog2 := 8, phaseW := 32, wtAmp := 32767, sineAmp := 32767, waveA := 0, waveB := 1,
      maxPoly := 16, maxCh := 2, maxBlock := 4096, evqDepth := 64, noteIdW := 16,
      twoPiQ16 := 411775, sine := State.reset.build.sine }

/-! ### Faults, halt, ports (60_exceptions.md, 30_encoding.md R94, R96) -/

/-- A command that halts the block does exactly what R252 says and nothing else, with a code of R250; it
is a command of the render port. -/
def Obligations.FaultEntryIsExact : Prop :=
  ∀ (i : Instr) (s t : State), s.status.halted = false → exec i s = .next t →
    t.status.halted = true →
      s.port = .render ∧
        t.faultLine = true ∧
        ∃ c : Octet, 1 ≤ c.toNat ∧ c.toNat ≤ 8 ∧ t = s.faulted c (encode i).w0

/-- Before `PREPARE` every render-port command but `NOP`, `PREPARE`, `WRCFG`, `RDREG` and `WT.READ` (and
`SETGLOBAL`, which is illegal there) raises `F_NOT_PREPARED`, whatever its operands (R94 step 3, R281). -/
def Obligations.UnpreparedFaults : Prop :=
  ∀ (i : Instr) (s : State), s.accepting → s.status.prepared = false →
    (encode i).opcode ∉ [0x00#8, 0x01#8, 0x03#8, 0x04#8, 0x10#8, 0x30#8] →
      exec i s = .next (s.faulted 0x02 (encode i).w0)

/-- While halted, a render-port command changes nothing (R253 (a), (b)); a `RDREG` changes at most the
response word. -/
def Obligations.HaltedIgnoresCommands : Prop :=
  ∀ (i : Instr) (s : State), s.port = .render → s.status.halted = true →
    ((encode i).opcode ≠ 0x04#8 → exec i s = .next s) ∧
    ((encode i).opcode = 0x04#8 → ∃ x, exec i s = .next { s with result := x })

/-- The control port works the same whether or not the block is prepared or halted, and wherever a
`RENDER` stands (R70 (b), R96, R253 (c)). -/
def Obligations.ControlPortIgnoresHalt : Prop :=
  ∀ (i : Instr) (s t : State) (h p : Bool) (ph : Phase), s.port = .control →
    exec i s = .next t →
      exec i { s with status := { s.status with halted := h, prepared := p }, phase := ph } =
        .next { t with status := { t.status with halted := h, prepared := p }, phase := ph }

/-- The port rights of R257 that deny: a command of the render port alone is discarded on the control
port with `CTL_ILLEGAL`; `SETGLOBAL` on the render port raises `F_ILLEGAL_CMD`. -/
def Obligations.PortRightsDeny : Prop :=
  (∀ (i : Instr) (s : State), s.port = .control →
    (encode i).opcode ∉ [0x10#8, 0x20#8, 0x21#8, 0x22#8, 0x23#8, 0x24#8] →
      exec i s = .next { s with status := { s.status with ctlIllegal := true } }) ∧
  ∀ (i : Half) (x : Word) (s : State), s.accepting →
    exec (.setglobal i x) s = .next (s.faulted 0x01 (packW0 0x10 0 i))

/-- Only reset clears `HALTED`, `FAULT_CAUSE` and `FAULT_W0`, and it clears all three (R254). -/
def Obligations.OnlyResetLeavesHalt : Prop :=
  ∀ s t : State, s.status.halted = true → step s = .next t →
    (s.turns.head? ≠ some .reset →
      t.status.halted = true ∧ t.faultCause = s.faultCause ∧ t.faultW0 = s.faultW0) ∧
    (s.turns.head? = some .reset →
      t.status.halted = false ∧ t.faultCause = 0 ∧ t.faultW0 = 0)

/-- Single writer (R78): a step of the control agent changes the store, appends to the queue and sets
`EVQ_OVF` and `CTL_ILLEGAL`, no more; a step of the render agent leaves the store, takes events only from
the queue, and of those two flags only clears. -/
def Obligations.SingleWriter : Prop :=
  ∀ (s t : State) (ts : List Turn), step s = .next t →
    (s.turns = .control :: ts →
      t = { s with
        store := t.store
        evq := t.evq
        status := { s.status with
          evqOvf := t.status.evqOvf, ctlIllegal := t.status.ctlIllegal }
        controlIn := t.controlIn
        turns := ts } ∧
      s.evq <+: t.evq ∧ (s.status.evqOvf → t.status.evqOvf) ∧
      (s.status.ctlIllegal → t.status.ctlIllegal)) ∧
    (s.turns = .render :: ts →
      t.store = s.store ∧ t.controlIn = s.controlIn ∧ (t.evq = s.evq ∨ t.evq = []) ∧
      (t.status.evqOvf → s.status.evqOvf) ∧ (t.status.ctlIllegal → s.status.ctlIllegal))

/-! ### Engine and system commands (48_engine_system.md) -/

/-- `NOP` is the command whose W0 is zero, and changes nothing, not even `RESULT` (R220). -/
def Obligations.NopDoesNothing : Prop :=
  (∀ w : Command, decode w = some .nop ↔ w.w0 = 0) ∧
  ∀ s : State, s.accepting → exec .nop s = .next s

/-- `PREPARE` (R221): its three checks in order, then every register it writes, and nothing else. -/
def Obligations.PrepareConfigures : Prop :=
  ∀ (fs mb poly : Word) (s : State), s.accepting →
    (fs = 0 → exec (.prepare fs mb poly) s = .next (s.faulted 0x03 (packW0 0x01 0 0))) ∧
    (fs ≠ 0 → poly = 0 ∨ s.build.maxPoly < poly.toNat →
      exec (.prepare fs mb poly) s = .next (s.faulted 0x04 (packW0 0x01 0 0))) ∧
    (fs ≠ 0 → poly ≠ 0 → poly.toNat ≤ s.build.maxPoly →
        mb = 0 ∨ s.build.maxBlock < mb.toNat →
      exec (.prepare fs mb poly) s = .next (s.faulted 0x05 (packW0 0x01 0 0))) ∧
    (fs ≠ 0 → poly ≠ 0 → poly.toNat ≤ s.build.maxPoly → mb ≠ 0 →
        mb.toNat ≤ s.build.maxBlock →
      let mode : RampMode := if s.cfgCtrl.getLsbD 3 then .exponential else .linear
      ∃ t, exec (.prepare fs mb poly) s = .next t ∧
        t = { s with
          status := ⟨true, s.status.halted, false, false, false⟩
          srate := fs
          maxblk := mb
          poly := poly
          numCh := 0
          numSamp := 0
          assignSeq := 0
          envParams := t.envParams
          filtA := t.filtA
          mixActive := t.mixActive
          decayRampActive := s.store.decayRamp
          grCutoff := t.grCutoff
          grMix := t.grMix
          grDecayRamp := t.grDecayRamp
          voices := t.voices
          evq := [] } ∧
        t.voices.length = s.voices.length ∧
        (∀ v, v < s.voices.length →
          (t.voice v).vstate = .free ∧ (t.voice v).noteId = 0 ∧ (t.voice v).age = 0 ∧
          (t.voice v).osc0 = ⟨0, 0⟩ ∧ (t.voice v).osc1 = ⟨0, 0⟩ ∧
          (t.voice v).env = ⟨.idle, 0, 0, 0⟩ ∧ (t.voice v).filtY = 0 ∧
          (t.voice v).pressure.FreshAt 0 fs s.cfgRampT mode ∧
          (t.voice v).timbre.FreshAt 0 fs s.cfgRampT mode ∧
          (t.voice v).frequency.FreshAt 0 fs s.cfgRampT mode) ∧
        t.grCutoff.FreshAt s.store.cutoff fs s.cfgRampT mode ∧
        t.grMix.FreshAt t.mixActive fs s.cfgRampT mode ∧
        t.grDecayRamp.FreshAt s.store.decayRamp fs s.cfgRampT mode ∧
        t.mixActive.toNat = min s.store.mix.toNat (2 ^ 31) ∧
        t.filtA.toNat = min 0x8000 (s.store.cutoff.toNat * s.build.twoPiQ16 / (fs.toNat * 2 ^ 17)) ∧
        t.envParams.alen.toNat = min (s.store.attack.toNat * fs.toNat / 2 ^ 16) (2 ^ 32 - 1) ∧
        t.envParams.dlen.toNat = min (s.store.decay.toNat * fs.toNat / 2 ^ 16) (2 ^ 32 - 1) ∧
        t.envParams.sus.toNat = min s.store.sustain.toNat (2 ^ 31) ∧
        t.envParams.rlen.toNat = min (s.store.release.toNat * fs.toNat / 2 ^ 16) (2 ^ 32 - 1))

/-- `RENDER` (R222): its argument check, then step begin (R223): the geometry is set and cleared, words
outside it kept, and the waiting events are dispatched, oldest first, on the emptied queue; step body is
next. -/
def Obligations.RenderBegins : Prop :=
  ∀ (nch ns : Word) (s : State), s.ready →
    (s.build.maxCh < nch.toNat ∨ s.maxblk.toNat < ns.toNat →
      exec (.render nch ns) s = .next (s.faulted 0x06 (packW0 0x02 0 0))) ∧
    (nch.toNat ≤ s.build.maxCh → ns.toNat ≤ s.maxblk.toNat →
      ∃ t b : State, exec (.render nch ns) s = .next t ∧
        b = { s with numCh := nch, numSamp := ns, evq := [], out := b.out } ∧
        (∀ c n, readOut b.build b.out c n =
          if c < nch.toNat ∧ n < ns.toNat then 0 else readOut s.build s.out c n) ∧
        t = { s.evq.foldl State.dispatch b with phase := .body ns })

/-- Step body (R224): the envelope snapshot, then `V.RENDER(v, 0, ns)` of every voice below `POLY`,
ascending; step end is next. Step end (R225): the global ramps retargeted from the store and ticked ns
times, the three derived registers refreshed from them, nothing else of the spec's state; the render port is
free again. -/
def Obligations.RenderBodyAndEndSteps : Prop :=
  ∀ (s : State) (ns : Word) (ts : List Turn), s.turns = .render :: ts →
    (s.phase = .body ns → s.poly.toNat ≤ s.voices.length →
      ∃ p : EnvParams,
        p.alen.toNat = min (s.store.attack.toNat * s.srate.toNat / 2 ^ 16) (2 ^ 32 - 1) ∧
        p.dlen.toNat = min (s.store.decay.toNat * s.srate.toNat / 2 ^ 16) (2 ^ 32 - 1) ∧
        p.sus.toNat = min s.store.sustain.toNat (2 ^ 31) ∧
        p.rlen.toNat = min (s.store.release.toNat * s.srate.toNat / 2 ^ 16) (2 ^ 32 - 1) ∧
        step s = .next { (List.range s.poly.toNat).foldl
            (fun u v => State.renderRun v ns.toNat 0 u) { s with envParams := p } with
          phase := .finish ns, turns := ts }) ∧
    (s.phase = .finish ns →
      ∃ (t : State) (mix : Word), step s = .next t ∧ mix.toNat = min s.store.mix.toNat (2 ^ 31) ∧
        t = { s with
          grCutoff := Ramp.ticks ns.toNat (s.grCutoff.setTarget s.store.cutoff)
          grMix := Ramp.ticks ns.toNat (s.grMix.setTarget mix)
          grDecayRamp := Ramp.ticks ns.toNat (s.grDecayRamp.setTarget s.store.decayRamp)
          filtA := t.filtA
          mixActive := t.mixActive
          decayRampActive := t.grDecayRamp.cur
          phase := .idle
          rendered := t.rendered
          turns := ts } ∧
        t.filtA.toNat = min 0x8000 (t.grCutoff.cur.toNat * s.build.twoPiQ16 / (s.srate.toNat * 2 ^ 17)) ∧
        t.mixActive.toNat = min t.grMix.cur.toNat (2 ^ 31))

/-- An edit that lands between the body step and the end step of one `RENDER` is seen by that end step
and not by that body step (R72). -/
def Obligations.EditBetweenBodyAndEnd : Prop :=
  ∀ (s : State) (ns : Word) (w : Command) (ws : List Command) (ts : List Turn) (i : Half) (x : Word),
    s.phase = .body ns → s.turns = .render :: .control :: .render :: ts →
    s.controlIn = w :: ws → decode w = some (.setglobal i x) → i.toNat ≤ 6 →
      ∃ t, Host.Core.run core 3 s = .next t ∧ t.phase = .idle ∧
        t.store.words = s.store.words.set i.toNat x ∧
        t.envParams.alen.toNat = min (s.store.attack.toNat * s.srate.toNat / 2 ^ 16) (2 ^ 32 - 1) ∧
        t.envParams.dlen.toNat = min (s.store.decay.toNat * s.srate.toNat / 2 ^ 16) (2 ^ 32 - 1) ∧
        t.envParams.sus.toNat = min s.store.sustain.toNat (2 ^ 31) ∧
        t.envParams.rlen.toNat = min (s.store.release.toNat * s.srate.toNat / 2 ^ 16) (2 ^ 32 - 1) ∧
        t.grCutoff.tgt = t.store.cutoff ∧
        t.grMix.tgt.toNat = min t.store.mix.toNat (2 ^ 31) ∧
        t.grDecayRamp.tgt = t.store.decayRamp

/-- `WRCFG` (R226): the configuration registers and the flag clear, by index. -/
def Obligations.WrcfgWrites : Prop :=
  ∀ (i : Half) (x : Word) (s : State), s.accepting →
    (3 < i.toNat → exec (.wrcfg i x) s = .next (s.faulted 0x07 (packW0 0x03 0 i))) ∧
    (i = 0 → ∃ c, exec (.wrcfg i x) s = .next { s with cfgCtrl := c } ∧
      c.toNat = x.toNat % 16) ∧
    (i = 1 → exec (.wrcfg i x) s = .next { s with cfgRampT := x }) ∧
    (i = 2 → ∃ a, exec (.wrcfg i x) s = .next { s with cfgAmpScale := a } ∧
      a.toNat = min (x.toNat % 2 ^ 16) 0x8000) ∧
    (i = 3 → exec (.wrcfg i x) s = .next { s with
      status := ⟨s.status.prepared, s.status.halted, s.status.evqOvf && !x.getLsbD 2,
        s.status.noteDropped && !x.getLsbD 3, s.status.ctlIllegal && !x.getLsbD 4⟩ })

/-- `RDREG` (R229) returns the register that the map of R35 gives the number, halted or not, and changes
`RESULT` only. That `EVQ_COUNT` reads modulo 2^32 with more events waiting than 32 bits count is the model's
choice (log 19). -/
def Obligations.RdregReads : Prop :=
  ∀ s : State, s.port = .render →
    (∀ p ∈ [(0x0000#16, 0x4D505331#32),
        (0x0001#16, 0#27 ++ BitVec.ofBool s.status.ctlIllegal ++ BitVec.ofBool s.status.noteDropped ++
          BitVec.ofBool s.status.evqOvf ++ BitVec.ofBool s.status.halted ++
          BitVec.ofBool s.status.prepared),
        (0x0002#16, 0#24 ++ s.faultCause), (0x0003#16, s.faultW0), (0x0004#16, s.srate),
        (0x0005#16, s.maxblk), (0x0006#16, s.poly), (0x0007#16, s.numCh), (0x0008#16, s.numSamp),
        (0x0009#16, s.assignSeq), (0x000A#16, BitVec.ofNat 32 s.evq.length), (0x000B#16, s.result),
        (0x0010#16, 0#28 ++ s.cfgCtrl), (0x0011#16, s.cfgRampT), (0x0012#16, 0#16 ++ s.cfgAmpScale),
        (0x0030#16, s.envParams.alen), (0x0031#16, s.envParams.dlen), (0x0032#16, s.envParams.sus),
        (0x0033#16, s.envParams.rlen), (0x0034#16, 0#16 ++ s.filtA), (0x0035#16, s.mixActive),
        (0x0036#16, s.decayRampActive)],
      exec (.rdreg 0 p.1) s = .next { s with result := p.2 }) ∧
    (∀ i, i < 7 → ∃ x, s.store.words[i]? = some x ∧
      exec (.rdreg 0 (BitVec.ofNat 16 (0x0020 + i))) s = .next { s with result := x }) ∧
    (∀ g k, g < 3 → k < 8 → ∃ q x, [s.grCutoff, s.grMix, s.grDecayRamp][g]? = some q ∧
      q.fields[k]? = some x ∧
      exec (.rdreg 0 (BitVec.ofNat 16 (0x0040 + 8 * g + k))) s = .next { s with result := x }) ∧
    ∀ v : Octet, v.toNat < s.build.maxPoly →
      (∀ p ∈ [(0x0100#16, match (s.voice v.toNat).vstate with
            | .free => 0#32 | .assigned => 1 | .releasing => 2),
          (0x0101#16, 0#16 ++ (s.voice v.toNat).noteId), (0x0102#16, (s.voice v.toNat).age),
          (0x0110#16, (s.voice v.toNat).osc0.phase), (0x0111#16, (s.voice v.toNat).osc0.inc),
          (0x0112#16, (s.voice v.toNat).osc1.phase), (0x0113#16, (s.voice v.toNat).osc1.inc),
          (0x0120#16, match (s.voice v.toNat).env.stage with
            | .idle => 0#32 | .attack => 1 | .decay => 2 | .sustain => 3 | .release => 4),
          (0x0121#16, (s.voice v.toNat).env.level), (0x0122#16, (s.voice v.toNat).env.progress),
          (0x0123#16, (s.voice v.toNat).env.relStart), (0x0130#16, (s.voice v.toNat).filtY)],
        exec (.rdreg v p.1) s = .next { s with result := p.2 }) ∧
      (∀ r k, r < 3 → k < 8 → ∃ q x,
        [(s.voice v.toNat).pressure, (s.voice v.toNat).timbre, (s.voice v.toNat).frequency][r]? =
          some q ∧
        q.fields[k]? = some x ∧
        exec (.rdreg v (BitVec.ofNat 16 (0x0140 + 8 * r + k))) s = .next { s with result := x })

/-- The `RDREG` forms of R229 that name no register: `F_BAD_INDEX`, ignored while halted (R253 (a)). -/
def Obligations.RdregBadNumbers : Prop :=
  ∀ (sel : Octet) (reg : Half) (s : State), s.port = .render →
    (reg.toNat < 0x0100 ∧ (sel ≠ 0 ∨
        reg.toNat ∉ List.range' 0x0000 12 ++ List.range' 0x0010 3 ++ List.range' 0x0020 7 ++
          List.range' 0x0030 7 ++ List.range' 0x0040 24)) ∨
      (0x0100 ≤ reg.toNat ∧ (s.build.maxPoly ≤ sel.toNat ∨
        reg.toNat ∉ List.range' 0x0100 3 ++ List.range' 0x0110 4 ++ List.range' 0x0120 4 ++
          [0x0130] ++ List.range' 0x0140 24)) →
      exec (.rdreg sel reg) s =
        .next (if s.status.halted then s else s.faulted 0x07 (packW0 0x04 sel reg))

/-- `SETGLOBAL` on the control port (R227, R63): one whole word of the store, or `CTL_ILLEGAL`, prepared and
halted or not; on the render port it is illegal. -/
def Obligations.SetglobalWritesOneWord : Prop :=
  ∀ (i : Half) (x : Word) (s : State),
    (s.port = .control → i.toNat ≤ 6 → ∃ t, exec (.setglobal i x) s = .next t ∧
      t = { s with store := t.store } ∧ t.store.words = s.store.words.set i.toNat x) ∧
    (s.port = .control → 6 < i.toNat → exec (.setglobal i x) s =
      .next { s with status := { s.status with ctlIllegal := true } }) ∧
    (s.accepting → exec (.setglobal i x) s = .next (s.faulted 0x01 (packW0 0x10 0 i)))

/-! ### Events and the allocator (47_events_allocator.md, 48_engine_system.md R228) -/

/-- Each of the five event commands on the control port is appended to the queue whole, or dropped with
`EVQ_OVF` when it is full (R66, R228); on the render port it is dispatched at once, as one step. -/
def Obligations.EventsArePushedOrDispatched : Prop :=
  ∀ (e : Event) (s : State),
    (s.port = .control → s.evq.length < s.build.evqDepth →
      exec e.toInstr s = .next { s with evq := s.evq ++ [e] }) ∧
    (s.port = .control → s.build.evqDepth ≤ s.evq.length →
      exec e.toInstr s = .next { s with status := { s.status with evqOvf := true } }) ∧
    (s.ready → exec e.toInstr s = .next (s.dispatch e))

/-- The dispatch of `EV.NOTEON` (R206, R211): the lowest voice in use that holds the identifier, else the
lowest Free one, else the flag or the victim of the policy; the voice it picks is assigned as `V.ASSIGN`
does. That a voice holds the identifier modulo 2^`NOTE_ID_W` (`State.holds`) is the model's reading of R91
for a build with another width than 16 (log 12); at 16 it is R205's `NOTE_ID[v] = id`. -/
def Obligations.NoteOnAllocates : Prop :=
  ∀ (id : Half) (f p tb : Word) (v : Octet) (s : State), s.ready → s.Inv →
    let assigns := ∃ t, exec (.evNoteon id f p tb) s = .next t ∧
      exec (.vAssign v id f p tb) s = .next t
    let key : Nat → Nat := fun w =>
      if s.cfgCtrl.getLsbD 1 then (s.voice w).env.level.toNat else (s.voice w).age.toNat
    (s.holds v.toNat id = true → (∀ w, w < v.toNat → s.holds w id = false) → assigns) ∧
    ((∀ w, s.holds w id = false) →
      (v.toNat < s.poly.toNat → (s.voice v.toNat).vstate = .free →
        (∀ w, w < v.toNat → (s.voice w).vstate ≠ .free) → assigns) ∧
      ((∀ w, w < s.poly.toNat → (s.voice w).vstate ≠ .free) →
        (s.cfgCtrl.getLsbD 0 = false → exec (.evNoteon id f p tb) s =
          .next { s with status := { s.status with noteDropped := true } }) ∧
        (s.cfgCtrl.getLsbD 0 = true → v.toNat < s.poly.toNat →
          (∀ w, w < s.poly.toNat → key v.toNat ≤ key w) →
          (∀ w, w < v.toNat → key v.toNat < key w) → assigns)))

/-- The dispatch of the other four events (R205, R207 to R210): the voice operation of the same name on
the lowest voice in use that holds the identifier; nothing if no voice holds it. That a voice holds the
identifier modulo 2^`NOTE_ID_W` (`State.holds`) is the model's reading of R91 for a build with another width
than 16 (log 12); at 16 it is R205's `NOTE_ID[v] = id`. -/
def Obligations.OtherEventsReachTheHolder : Prop :=
  ∀ (id : Half) (a b c : Word) (v : Octet) (s : State), s.ready →
    s.poly.toNat ≤ s.voices.length →
    (s.holds v.toNat id = true → (∀ w, w < v.toNat → s.holds w id = false) →
      (∃ t, exec (.evNoteoff id a b c) s = .next t ∧ exec (.vRelease v) s = .next t) ∧
      (∃ t, exec (.evPressure id a b c) s = .next t ∧ exec (.vPressure v a) s = .next t) ∧
      (∃ t, exec (.evPitch id a b c) s = .next t ∧ exec (.vPitch v a) s = .next t) ∧
      (∃ t, exec (.evTimbre id a b c) s = .next t ∧ exec (.vTimbre v a) s = .next t)) ∧
    ((∀ w, s.holds w id = false) →
      exec (.evNoteoff id a b c) s = .next s ∧ exec (.evPressure id a b c) s = .next s ∧
      exec (.evPitch id a b c) s = .next s ∧ exec (.evTimbre id a b c) s = .next s)

/-! ### Wavetable bank (40_wavetable.md) -/

/-- `WT.READ` (R125), without `PREPARED`: the sample of the bank, or `F_BAD_INDEX`; and the contents of the
bank, N = 2^`TABLE_LOG2`: sawtooth and square by their formulas (R122), in a legal build the sine as the integer
nearest to S · sin(2πk/N) (R123), and the guard samples (R124). With N = 256 and S = 32767 the sine table of every
legal build is that of the 65 values and the two symmetries of R123, and the default build's is. -/
def Obligations.WtReadAnswersSample : Prop :=
  (∀ (t : Octet) (i : Half) (s : State), s.accepting → s.build.Legal →
    (2 < t.toNat ∨ 2 ^ s.build.tableLog2 < i.toNat →
      exec (.wtRead t i) s = .next (s.faulted 0x07 (packW0 0x30 t i))) ∧
    (t.toNat ≤ 2 → i.toNat ≤ 2 ^ s.build.tableLog2 →
      ∃ x : Word, exec (.wtRead t i) s = .next { s with result := x } ∧
        x.toInt = wt s.build t.toNat i.toNat)) ∧
  (∀ b : Config.Build,
    let n := 2 ^ b.tableLog2
    (∀ k, k < n → wt b 0 k = -b.wtAmp + 2 * b.wtAmp * k / (n : Nat) ∧
      wt b 1 k = (if k < n / 2 then (b.wtAmp : Int) else -b.wtAmp) ∧ wt b 2 k = b.sine.getD k 0) ∧
    (b.Legal →
      (∀ k, k < n →
        Config.Nearest (wt b 2 k) (b.sineAmp * Real.sin (2 * Real.pi * k / (n : Nat)))) ∧
      (b.tableLog2 = 8 → b.sineAmp = 32767 → ∀ k, wt b 2 k = wt State.reset.build 2 k)) ∧
    ∀ t, t ≤ 2 → wt b t n = wt b t 0) ∧
  let sine := wt State.reset.build 2
  (List.range 65).map sine =
    [0, 804, 1608, 2410, 3212, 4011, 4808, 5602, 6393, 7179, 7962, 8739, 9512, 10278, 11039, 11793,
      12539, 13279, 14010, 14732, 15446, 16151, 16846, 17530, 18204, 18868, 19519, 20159, 20787,
      21403, 22005, 22594, 23170, 23731, 24279, 24811, 25329, 25832, 26319, 26790, 27245, 27683,
      28105, 28510, 28898, 29268, 29621, 29956, 30273, 30571, 30852, 31113, 31356, 31580, 31785,
      31971, 32137, 32285, 32412, 32521, 32609, 32678, 32728, 32757, 32767] ∧
  (∀ k, k ≤ 128 → sine k = sine (128 - k)) ∧ ∀ k, k < 128 → sine (k + 128) = -sine k

/-! ### Oscillators (41_oscillator.md) -/

/-- `OSC.SETFREQ` (R131): the increment floor(f · 2^16 / fs) mod 2^32; the phase is kept. -/
def Obligations.OscSetfreqSetsIncrement : Prop :=
  ∀ (v : Octet) (o : Half) (f fs : Word) (s : State), s.ready → s.poly.toNat ≤ s.voices.length →
    (s.poly.toNat ≤ v.toNat ∨ 1 < o.toNat →
      exec (.oscSetfreq v o f fs) s = .next (s.faulted 0x07 (packW0 0x40 v o))) ∧
    (v.toNat < s.poly.toNat → o.toNat ≤ 1 → fs = 0 →
      exec (.oscSetfreq v o f fs) s = .next (s.faulted 0x08 (packW0 0x40 v o))) ∧
    (v.toNat < s.poly.toNat → o.toNat ≤ 1 → fs ≠ 0 →
      ∃ (t : State) (inc : Word), exec (.oscSetfreq v o f fs) s = .next t ∧
        s.OnlySlot t v.toNat ∧ t.result = s.result ∧
        inc.toNat = f.toNat * 2 ^ 16 / fs.toNat % 2 ^ 32 ∧
        t.voice v.toNat = if o = 0
          then { s.voice v.toNat with osc0 := ⟨(s.voice v.toNat).osc0.phase, inc⟩ }
          else { s.voice v.toNat with osc1 := ⟨(s.voice v.toNat).osc1.phase, inc⟩ })

/-- `OSC.NEXT` (R132): the linear interpolation of the oscillator's table at the phase before the advance,
which lies between the two samples it is read from, and the advance modulo 2^32. -/
def Obligations.OscNextInterpolates : Prop :=
  ∀ (v : Octet) (o : Half) (s : State), s.ready → s.poly.toNat ≤ s.voices.length →
    s.build.Legal →
    (s.poly.toNat ≤ v.toNat ∨ 1 < o.toNat →
      exec (.oscNext v o) s = .next (s.faulted 0x07 (packW0 0x41 v o))) ∧
    (v.toNat < s.poly.toNat → o.toNat ≤ 1 →
      let q := if o = 0 then (s.voice v.toNat).osc0 else (s.voice v.toNat).osc1
      let table := if o = 0 then s.build.waveA else s.build.waveB
      let frac := 2 ^ (32 - s.build.tableLog2)
      let t0 := wt s.build table (q.phase.toNat / frac)
      let t1 := wt s.build table (q.phase.toNat / frac + 1)
      ∃ (t : State) (ph : Word), exec (.oscNext v o) s = .next t ∧ s.OnlySlot t v.toNat ∧
        ph.toNat = (q.phase.toNat + q.inc.toNat) % 2 ^ 32 ∧
        (t.voice v.toNat = if o = 0
          then { s.voice v.toNat with osc0 := ⟨ph, q.inc⟩ }
          else { s.voice v.toNat with osc1 := ⟨ph, q.inc⟩ }) ∧
        t.result.toInt = t0 + ((q.phase.toNat % frac : Nat) : Int) * (t1 - t0) / (frac : Nat) ∧
        between t0 t.result.toInt t1)

/-- `OSC.RESET` (R133): the phase is 0, the increment is kept. -/
def Obligations.OscResetClearsPhase : Prop :=
  ∀ (v : Octet) (o : Half) (s : State), s.ready → s.poly.toNat ≤ s.voices.length →
    (s.poly.toNat ≤ v.toNat ∨ 1 < o.toNat →
      exec (.oscReset v o) s = .next (s.faulted 0x07 (packW0 0x42 v o))) ∧
    (v.toNat < s.poly.toNat → o.toNat ≤ 1 →
      ∃ t, exec (.oscReset v o) s = .next t ∧ s.OnlySlot t v.toNat ∧ t.result = s.result ∧
        t.voice v.toNat = if o = 0
          then { s.voice v.toNat with osc0 := ⟨0, (s.voice v.toNat).osc0.inc⟩ }
          else { s.voice v.toNat with osc1 := ⟨0, (s.voice v.toNat).osc1.inc⟩ })

/-! ### Envelopes (42_envelope.md) -/

/-- `ENV.LOADP` (R140): the snapshot of the four store words as lengths and a level. -/
def Obligations.EnvLoadpSnapshots : Prop :=
  ∀ s : State, s.ready →
    ∃ p : EnvParams, exec .envLoadp s = .next { s with envParams := p } ∧
      p.alen.toNat = min (s.store.attack.toNat * s.srate.toNat / 2 ^ 16) (2 ^ 32 - 1) ∧
      p.dlen.toNat = min (s.store.decay.toNat * s.srate.toNat / 2 ^ 16) (2 ^ 32 - 1) ∧
      p.sus.toNat = min s.store.sustain.toNat (2 ^ 31) ∧
      p.rlen.toNat = min (s.store.release.toNat * s.srate.toNat / 2 ^ 16) (2 ^ 32 - 1)

/-- `ENV.NOTEON`, `ENV.NOTEOFF` and `ENV.ISACTIVE` (R141, R142, R144). -/
def Obligations.EnvGates : Prop :=
  ∀ (v : Octet) (s : State), s.ready → s.poly.toNat ≤ s.voices.length →
    let x := s.voice v.toNat
    (s.poly.toNat ≤ v.toNat →
      exec (.envNoteon v) s = .next (s.faulted 0x07 (packW0 0x50 v 0)) ∧
      exec (.envNoteoff v) s = .next (s.faulted 0x07 (packW0 0x51 v 0)) ∧
      exec (.envIsactive v) s = .next (s.faulted 0x07 (packW0 0x53 v 0))) ∧
    (v.toNat < s.poly.toNat →
      (∃ t, exec (.envNoteon v) s = .next t ∧ s.OnlySlot t v.toNat ∧ t.result = s.result ∧
        t.voice v.toNat = { x with env := ⟨.attack, 0, 0, x.env.relStart⟩ }) ∧
      (∃ t, exec (.envNoteoff v) s = .next t ∧ s.OnlySlot t v.toNat ∧ t.result = s.result ∧
        t.voice v.toNat = { x with env := ⟨.release, x.env.level, 0, x.env.level⟩ }) ∧
      exec (.envIsactive v) s =
        .next { s with result := if x.env.stage = .idle then 0 else 1 })

/-- `ENV.NEXT` (R143): every stage, its completion and its clamped level. -/
def Obligations.EnvNextAdvances : Prop :=
  ∀ (v : Octet) (s : State), s.ready → s.Inv →
    (s.poly.toNat ≤ v.toNat →
      exec (.envNext v) s = .next (s.faulted 0x07 (packW0 0x52 v 0))) ∧
    (v.toNat < s.poly.toNat →
      let e := (s.voice v.toNat).env
      let p := s.envParams
      let n := e.progress.toNat + 1
      ∃ (t : State) (e' : Env), exec (.envNext v) s = .next t ∧ s.OnlySlot t v.toNat ∧
        t.voice v.toNat = { s.voice v.toNat with env := e' } ∧ t.result = e'.level ∧
        e'.relStart = e.relStart ∧
        (e.stage = .idle → e' = { e with level := 0 }) ∧
        (e.stage = .attack →
          if p.alen.toNat ≤ n then
            e'.level.toNat = 2 ^ 31 ∧ e'.stage = .decay ∧ e'.progress = 0
          else e'.level.toNat = max e.level.toNat (2 ^ 31 * n / p.alen.toNat) ∧
            e'.stage = .attack ∧ e'.progress.toNat = n) ∧
        (e.stage = .decay →
          if p.dlen.toNat ≤ n then
            e'.level.toNat = min e.level.toNat p.sus.toNat ∧ e'.stage = .sustain ∧ e'.progress = 0
          else e'.level.toNat = min e.level.toNat
              (2 ^ 31 - (2 ^ 31 - p.sus.toNat) * n / p.dlen.toNat) ∧
            e'.stage = .decay ∧ e'.progress.toNat = n) ∧
        (e.stage = .sustain → e' = { e with level := p.sus }) ∧
        (e.stage = .release →
          let l := if p.rlen.toNat ≤ n then 0
            else min e.level.toNat (e.relStart.toNat - e.relStart.toNat * n / p.rlen.toNat)
          e'.level.toNat = l ∧
            if l = 0 then e'.stage = .idle ∧ e'.progress = 0
            else e'.stage = .release ∧ e'.progress.toNat = n))

/-- The level is monotonic inside a stage whatever the shared parameters are at each call (R143, R146
(a), (b)): it does not fall in Attack and does not rise in Decay and Release, and stays in [0, 1]. -/
def Obligations.EnvMonotoneInStage : Prop :=
  ∀ (v : Octet) (s t : State), s.ready → s.Inv → v.toNat < s.poly.toNat →
    exec (.envNext v) s = .next t →
      let e := (s.voice v.toNat).env
      let e' := (t.voice v.toNat).env
      (e.stage = .attack → e.level.toNat ≤ e'.level.toNat) ∧
      (e.stage = .decay ∨ e.stage = .release → e'.level.toNat ≤ e.level.toNat) ∧
      e'.level.toNat ≤ 2 ^ 31 ∧ (e'.stage = .idle → e'.level = 0)

/-- A release lasts exactly max(1, `ENV_RLEN`) calls with unchanged parameters: it is in Release with a
positive level before, and Idle at that call (R143 (e)). -/
def Obligations.ReleaseLastsRlenCalls : Prop :=
  ∀ (p : EnvParams) (e : Env), e.Ok → 0 < e.level.toNat →
    (∀ k, k < max 1 p.rlen.toNat →
      ((Env.next p)^[k] e.noteOff).stage = .release ∧
        0 < ((Env.next p)^[k] e.noteOff).level.toNat) ∧
    ((Env.next p)^[max 1 p.rlen.toNat] e.noteOff).stage = .idle

/-! ### Ramps (43_ramp.md) -/

/-- The selection of a ramp (R161) and `RMP.GETCUR` (R159): which instance each select names, and the
selects that raise `F_BAD_INDEX` in all four ramp commands. -/
def Obligations.RampSelectionAndGetcur : Prop :=
  ∀ (sel : Octet) (r : Half) (x fs time : Word) (s : State), s.ready →
    let x' := s.voice sel.toNat
    (5 < r.toNat ∨ (r.toNat ≤ 2 ∧ s.poly.toNat ≤ sel.toNat) ∨ (3 ≤ r.toNat ∧ sel ≠ 0) →
      exec (.rmpSettarget sel r x) s = .next (s.faulted 0x07 (packW0 0x60 sel r)) ∧
      exec (.rmpReset sel r fs time) s = .next (s.faulted 0x07 (packW0 0x61 sel r)) ∧
      exec (.rmpNext sel r) s = .next (s.faulted 0x07 (packW0 0x62 sel r)) ∧
      exec (.rmpGetcur sel r) s = .next (s.faulted 0x07 (packW0 0x63 sel r))) ∧
    (sel.toNat < s.poly.toNat →
      (r = 0 → s.selectRamp sel r = some (.pressure sel.toNat) ∧
        exec (.rmpGetcur sel r) s = .next { s with result := x'.pressure.cur }) ∧
      (r = 1 → s.selectRamp sel r = some (.timbre sel.toNat) ∧
        exec (.rmpGetcur sel r) s = .next { s with result := x'.timbre.cur }) ∧
      (r = 2 → s.selectRamp sel r = some (.frequency sel.toNat) ∧
        exec (.rmpGetcur sel r) s = .next { s with result := x'.frequency.cur })) ∧
    (sel = 0 →
      (r = 3 → s.selectRamp sel r = some .cutoff ∧
        exec (.rmpGetcur sel r) s = .next { s with result := s.grCutoff.cur }) ∧
      (r = 4 → s.selectRamp sel r = some .mix ∧
        exec (.rmpGetcur sel r) s = .next { s with result := s.grMix.cur }) ∧
      (r = 5 → s.selectRamp sel r = some .decayRamp ∧
        exec (.rmpGetcur sel r) s = .next { s with result := s.grDecayRamp.cur }))

/-- `RMP.RESET` (R156): length, coefficient and shape set, the value snapped to the target. -/
def Obligations.RmpResetSnaps : Prop :=
  ∀ (sel : Octet) (r : Half) (fs time : Word) (s : State), s.ready →
    s.poly.toNat ≤ s.voices.length →
    (s.selectRamp sel r = none →
      exec (.rmpReset sel r fs time) s = .next (s.faulted 0x07 (packW0 0x61 sel r))) ∧
    ∀ q, s.selectRamp sel r = some q →
    (fs = 0 → exec (.rmpReset sel r fs time) s = .next (s.faulted 0x08 (packW0 0x61 sel r))) ∧
    (fs ≠ 0 → ∃ t, exec (.rmpReset sel r fs time) s = .next t ∧ s.OnlyRamp t q ∧
      t.result = s.result ∧
      (t.ramp q).FreshAt (s.ramp q).tgt fs time
        (if s.cfgCtrl.getLsbD 3 then .exponential else .linear))

/-- `RMP.SETTARGET` (R157): an instant ramp follows at once; a linear one starts a fresh ramp on a
different target and keeps its pace on the same; an exponential one takes the target. -/
def Obligations.RmpSettargetRetargets : Prop :=
  ∀ (sel : Octet) (r : Half) (x : Word) (s : State), s.ready → s.poly.toNat ≤ s.voices.length →
    (s.selectRamp sel r = none →
      exec (.rmpSettarget sel r x) s = .next (s.faulted 0x07 (packW0 0x60 sel r))) ∧
    ∀ q, s.selectRamp sel r = some q →
    let a := s.ramp q
    ∃ (t : State) (b : Ramp), exec (.rmpSettarget sel r x) s = .next t ∧ s.OnlyRamp t q ∧
      t.result = s.result ∧ t.ramp q = b ∧
      (a.steps = 0 → b = { a with tgt := x, cur := x, cnt := 0, step := 0 }) ∧
      (a.steps ≠ 0 → a.mode = .linear → x = a.tgt → b = a) ∧
      (a.steps ≠ 0 → a.mode = .linear → x ≠ a.tgt →
        b = { a with tgt := x, cnt := a.steps, step := b.step } ∧
        b.step.toInt = ((x.toNat : Int) - a.cur.toNat).tdiv a.steps.toNat) ∧
      (a.steps ≠ 0 → a.mode = .exponential → b = { a with tgt := x })

/-- `RMP.NEXT` (R158): the linear tick, whose last lands on the target, and the exponential tick by the
ceiling of the distance times the coefficient; no sum wraps. -/
def Obligations.RmpNextTicks : Prop :=
  ∀ (sel : Octet) (r : Half) (s : State), s.ready → s.Inv →
    (s.selectRamp sel r = none →
      exec (.rmpNext sel r) s = .next (s.faulted 0x07 (packW0 0x62 sel r))) ∧
    ∀ q, s.selectRamp sel r = some q →
    let a := s.ramp q
    let d : Int := (a.tgt.toNat : Int) - a.cur.toNat
    ∃ (t : State) (b : Ramp), exec (.rmpNext sel r) s = .next t ∧ s.OnlyRamp t q ∧
      t.ramp q = b ∧ t.result = b.cur ∧
      (a.mode = .linear → a.cnt = 0 → b = a) ∧
      (a.mode = .linear → a.cnt = 1 → b = { a with cnt := 0, cur := a.tgt }) ∧
      (a.mode = .linear → 1 < a.cnt.toNat →
        b = { a with cnt := b.cnt, cur := b.cur } ∧ b.cnt.toNat = a.cnt.toNat - 1 ∧
        (b.cur.toNat : Int) = a.cur.toNat + a.step.toInt) ∧
      (a.mode = .exponential → d = 0 → b = a) ∧
      (a.mode = .exponential → d ≠ 0 →
        ∃ m : Nat, d.natAbs * a.coef.toNat ≤ m * 2 ^ 31 ∧ m * 2 ^ 31 < d.natAbs * a.coef.toNat + 2 ^ 31 ∧
          b = { a with cur := b.cur } ∧ (b.cur.toNat : Int) = a.cur.toNat + d.sign * m)

/-- No overshoot, monotone approach and continuity on retarget (R160 (a), (b), (c)), from any well-kept
ramp: every tick moves towards the target and not past it, and a new target does not move the value. -/
def Obligations.RampNeverOvershoots : Prop :=
  ∀ q : Ramp, q.Ok →
    (∀ k, (Ramp.ticks k q).tgt = q.tgt ∧ between q.cur.toNat (Ramp.ticks k q).cur.toNat q.tgt.toNat ∧
      between (Ramp.ticks k q).cur.toNat (Ramp.ticks (k + 1) q).cur.toNat q.tgt.toNat) ∧
    ∀ x, (q.setTarget x).Ok ∧ (q.steps ≠ 0 → (q.setTarget x).cur = q.cur)

/-- Arrival of a linear ramp (R160 (d)): after a new target, k ticks are k steps for k below `STEPS`, and
the target is reached at tick `STEPS` and kept. -/
def Obligations.LinearRampArrives : Prop :=
  ∀ (q : Ramp) (x : Word), q.mode = .linear → q.steps ≠ 0 → x ≠ q.tgt →
    (∀ k, k < q.steps.toNat → ((Ramp.ticks k (q.setTarget x)).cur.toNat : Int) =
      q.cur.toNat + k * ((x.toNat : Int) - q.cur.toNat).tdiv q.steps.toNat) ∧
    ∀ k, q.steps.toNat ≤ k → (Ramp.ticks k (q.setTarget x)).cur = x

/-- Arrival of an exponential ramp (R158, R160 (d)): the target is reached exactly after finitely many
ticks and kept. -/
def Obligations.ExponentialRampArrives : Prop :=
  ∀ q : Ramp, q.mode = .exponential → q.Ok → ∃ n, ∀ k, n ≤ k → (Ramp.ticks k q).cur = q.tgt

/-! ### Filter (44_filter.md) -/

/-- `FLT.COEF` (R171). -/
def Obligations.FltCoefComputes : Prop :=
  ∀ (cutoff fs : Word) (s : State), s.ready →
    (fs = 0 → exec (.fltCoef cutoff fs) s = .next (s.faulted 0x08 (packW0 0x70 0 0))) ∧
    (fs ≠ 0 → ∃ a : Half, exec (.fltCoef cutoff fs) s = .next { s with filtA := a } ∧
      a.toNat = min 0x8000 (cutoff.toNat * s.build.twoPiQ16 / (fs.toNat * 2 ^ 17)))

/-- `FLT.NEXT` (R172): the new state in exact arithmetic, between the old state and the input, and its top
16 bits as the response. -/
def Obligations.FltNextFilters : Prop :=
  ∀ (v : Octet) (x : Word) (s : State), s.ready → s.Inv →
    (s.poly.toNat ≤ v.toNat →
      exec (.fltNext v x) s = .next (s.faulted 0x07 (packW0 0x71 v 0))) ∧
    (v.toNat < s.poly.toNat →
      let y := (s.voice v.toNat).filtY.toInt
      let xs := (x.setWidth 16).toInt * 2 ^ 16
      ∃ (t : State) (y' : Word), exec (.fltNext v x) s = .next t ∧ s.OnlySlot t v.toNat ∧
        t.voice v.toNat = { s.voice v.toNat with filtY := y' } ∧
        y'.toInt = (if s.cfgCtrl.getLsbD 2 then y + (s.filtA.toNat : Int) * (xs - y) / 2 ^ 15
          else xs) ∧
        between y y'.toInt xs ∧ t.result.toInt = y'.toInt / 2 ^ 16)

/-- `FLT.CLEAR` (R173). -/
def Obligations.FltClearZeroes : Prop :=
  ∀ (v : Octet) (s : State), s.ready → s.poly.toNat ≤ s.voices.length →
    (s.poly.toNat ≤ v.toNat →
      exec (.fltClear v) s = .next (s.faulted 0x07 (packW0 0x72 v 0))) ∧
    (v.toNat < s.poly.toNat →
      ∃ t, exec (.fltClear v) s = .next t ∧ s.OnlySlot t v.toNat ∧ t.result = s.result ∧
        t.voice v.toNat = { s.voice v.toNat with filtY := 0 })

/-! ### Voices (45_voice.md) -/

/-- `V.ASSIGN` (R181): phases, filter state and envelope restarted, the three ramps retargeted (R157) from
the clamped operands, the note recorded with its age, the counter advanced modulo 2^32. That the identifier
is recorded modulo 2^`NOTE_ID_W` is the model's reading of R91 for a build with another width than 16 (log
12); at 16 it is R181's `NOTE_ID[v] <- id`. -/
def Obligations.VAssignGivesNote : Prop :=
  ∀ (v : Octet) (id : Half) (f p tb : Word) (s : State), s.ready →
    s.poly.toNat ≤ s.voices.length →
    (s.poly.toNat ≤ v.toNat →
      exec (.vAssign v id f p tb) s = .next (s.faulted 0x07 (packW0 0x80 v id))) ∧
    (v.toNat < s.poly.toNat →
      let x := s.voice v.toNat
      ∃ (t : State) (pt tt : Word) (n : Half), exec (.vAssign v id f p tb) s = .next t ∧
        t = { s with voices := t.voices, assignSeq := t.assignSeq } ∧
        t.voices.length = s.voices.length ∧ n.toNat = id.toNat % 2 ^ s.build.noteIdW ∧
        t.assignSeq.toNat = (s.assignSeq.toNat + 1) % 2 ^ 32 ∧
        (∀ w, w ≠ v.toNat → t.voice w = s.voice w) ∧
        pt.toNat = min (p.toNat % 2 ^ 16) 0x8000 * 2 ^ 16 ∧
        tt.toNat = min (tb.toNat % 2 ^ 16) 0x8000 * 2 ^ 16 ∧
        t.voice v.toNat =
          { vstate := .assigned
            noteId := n
            age := s.assignSeq
            osc0 := ⟨0, x.osc0.inc⟩
            osc1 := ⟨0, x.osc1.inc⟩
            env := ⟨.attack, 0, 0, x.env.relStart⟩
            filtY := 0
            pressure := x.pressure.setTarget pt
            timbre := x.timbre.setTarget tt
            frequency := x.frequency.setTarget f })

/-- `V.PRESSURE`, `V.PITCH` and `V.TIMBRE` (R182, R183, R184): the target of one ramp, nothing on a Free
voice. -/
def Obligations.VoiceUpdatesRetarget : Prop :=
  ∀ (v : Octet) (a : Word) (s : State), s.ready → s.poly.toNat ≤ s.voices.length →
    let x := s.voice v.toNat
    (s.poly.toNat ≤ v.toNat →
      exec (.vPressure v a) s = .next (s.faulted 0x07 (packW0 0x81 v 0)) ∧
      exec (.vPitch v a) s = .next (s.faulted 0x07 (packW0 0x82 v 0)) ∧
      exec (.vTimbre v a) s = .next (s.faulted 0x07 (packW0 0x83 v 0))) ∧
    (v.toNat < s.poly.toNat → x.vstate = .free →
      exec (.vPressure v a) s = .next s ∧ exec (.vPitch v a) s = .next s ∧
      exec (.vTimbre v a) s = .next s) ∧
    (v.toNat < s.poly.toNat → x.vstate ≠ .free →
      ∃ w : Word, w.toNat = min (a.toNat % 2 ^ 16) 0x8000 * 2 ^ 16 ∧
        (∃ t, exec (.vPressure v a) s = .next t ∧ s.OnlySlot t v.toNat ∧ t.result = s.result ∧
          t.voice v.toNat = { x with pressure := x.pressure.setTarget w }) ∧
        (∃ t, exec (.vPitch v a) s = .next t ∧ s.OnlySlot t v.toNat ∧ t.result = s.result ∧
          t.voice v.toNat = { x with frequency := x.frequency.setTarget a }) ∧
        ∃ t, exec (.vTimbre v a) s = .next t ∧ s.OnlySlot t v.toNat ∧ t.result = s.result ∧
          t.voice v.toNat = { x with timbre := x.timbre.setTarget w })

/-- `V.RELEASE` (R185): an Assigned voice starts its release from the level it has; any other voice is left
alone. -/
def Obligations.VReleaseReleases : Prop :=
  ∀ (v : Octet) (s : State), s.ready → s.poly.toNat ≤ s.voices.length →
    let x := s.voice v.toNat
    (s.poly.toNat ≤ v.toNat →
      exec (.vRelease v) s = .next (s.faulted 0x07 (packW0 0x84 v 0))) ∧
    (v.toNat < s.poly.toNat → x.vstate ≠ .assigned → exec (.vRelease v) s = .next s) ∧
    (v.toNat < s.poly.toNat → x.vstate = .assigned →
      ∃ t, exec (.vRelease v) s = .next t ∧ s.OnlySlot t v.toNat ∧ t.result = s.result ∧
        t.voice v.toNat =
          { x with vstate := .releasing, env := ⟨.release, x.env.level, 0, x.env.level⟩ })

/-- `V.RENDER` (R187): its range check without wrap; no sample does nothing; a run is its first part
followed by the rest; and only the voice's slot and the words of its samples change. `State.renderRun` is
the run that step body makes of it (R224). It completes in a geometry of no channels too, as R187's corner case
and R188 (c) say and as the decode order of R94 has it; a corner case of R196 says otherwise, and this reading is
the model's (DEDUCED, log 17). -/
def Obligations.VRenderRunsSamples : Prop :=
  ∀ (v : Octet) (start ns : Word) (s : State), s.ready → s.Inv →
    (s.poly.toNat ≤ v.toNat ∨ s.numSamp.toNat < start.toNat + ns.toNat →
      exec (.vRender v start ns) s = .next (s.faulted 0x07 (packW0 0x85 v 0))) ∧
    (v.toNat < s.poly.toNat → start.toNat + ns.toNat ≤ s.numSamp.toNat →
      (ns = 0 → exec (.vRender v start ns) s = .next s) ∧
      (∀ a b : Word, a.toNat + b.toNat = ns.toNat →
        ∃ t u, exec (.vRender v start a) s = .next t ∧ exec (.vRender v (start + a) b) t = .next u ∧
          exec (.vRender v start ns) s = .next u) ∧
      ∃ t, exec (.vRender v start ns) s = .next t ∧
        t = State.renderRun v.toNat ns.toNat start.toNat s ∧
        t = { s with voices := t.voices, out := t.out } ∧
        t.voices.length = s.voices.length ∧ (∀ w, w ≠ v.toNat → t.voice w = s.voice w) ∧
        ∀ c n, ¬(c < s.numCh.toNat ∧ start.toNat ≤ n ∧ n < start.toNat + ns.toNat) →
          readOut t.build t.out c n = readOut s.build s.out c n)

/-- One sample of a sounding voice (R186): ramps, oscillators, cross-fade, envelope, gains, filter and mix,
in the rule's order and rounding. `Ramp.next`, `oscSample` and `Env.next` are the operations of R158, R132
and R143. The filter takes `sext_16` of its input, which is the input itself while the pressure ramp is in the
range of its format (R32); beyond it, after a direct `RMP.SETTARGET`, the low 16 bits are the reading of log
16. That the command completes in a geometry of no channels is the model's reading (DEDUCED, log 17). -/
def Obligations.VSampleDatapath : Prop :=
  ∀ (v : Octet) (n : Word) (s : State), s.ready → s.Inv → v.toNat < s.poly.toNat →
    n.toNat < s.numSamp.toNat → (s.voice v.toNat).env.stage ≠ .idle →
      let x := s.voice v.toNat
      let s0 := oscSample s.build s.build.waveA x.osc0.phase
      let s1 := oscSample s.build s.build.waveB x.osc1.phase
      let m15 : Int := (s.mixActive.toNat / 2 ^ 16 : Nat)
      let smp := s0 + m15 * (s1 - s0) / 2 ^ 15
      let e := x.env.next s.envParams
      let e15 : Int := (e.level.toNat / 2 ^ 16 : Nat)
      let g : Int := (s.cfgAmpScale.toNat * (x.pressure.next.cur.toNat / 2 ^ 16) / 2 ^ 15 : Nat)
      let input := smp * e15 / 2 ^ 15 * g / 2 ^ 15
      let xs := (BitVec.ofInt 16 input).toInt * 2 ^ 16
      let y := x.filtY.toInt
      ∃ (t : State) (inc ph0 ph1 y' : Word), exec (.vRender v n 1) s = .next t ∧
        t = { s with voices := t.voices, out := t.out } ∧
        t.voices.length = s.voices.length ∧ (∀ w, w ≠ v.toNat → t.voice w = s.voice w) ∧
        (x.pressure.next.cur.toNat ≤ 2 ^ 31 → xs = input * 2 ^ 16) ∧
        inc.toNat = x.frequency.next.cur.toNat * 2 ^ 16 / s.srate.toNat % 2 ^ 32 ∧
        ph0.toNat = (x.osc0.phase.toNat + inc.toNat) % 2 ^ 32 ∧
        ph1.toNat = (x.osc1.phase.toNat + inc.toNat) % 2 ^ 32 ∧
        y'.toInt = (if s.cfgCtrl.getLsbD 2 then y + (s.filtA.toNat : Int) * (xs - y) / 2 ^ 15
          else xs) ∧
        t.voice v.toNat = { x with
          osc0 := ⟨ph0, inc⟩
          osc1 := ⟨ph1, inc⟩
          env := e
          filtY := y'
          pressure := x.pressure.next
          timbre := x.timbre.next
          frequency := x.frequency.next } ∧
        ∀ c k, readOut t.build t.out c k = if c < s.numCh.toNat ∧ k = n.toNat
          then BitVec.ofInt 32 ((readOut s.build s.out c k).toInt + y'.toInt / 2 ^ 16)
          else readOut s.build s.out c k

/-- A voice whose envelope is inactive emits nothing and is cleared (R186, R188 (a)), in a geometry of no
channels too, which is the model's reading (DEDUCED, log 17). -/
def Obligations.IdleVoiceIsSilent : Prop :=
  ∀ (v : Octet) (start ns : Word) (s : State), s.ready → s.poly.toNat ≤ s.voices.length →
    v.toNat < s.poly.toNat → start.toNat + ns.toNat ≤ s.numSamp.toNat → ns ≠ 0 →
    (s.voice v.toNat).env.stage = .idle →
      ∃ t, exec (.vRender v start ns) s = .next t ∧ s.OnlySlot t v.toNat ∧ t.result = s.result ∧
        t.voice v.toNat = { s.voice v.toNat with
          vstate := .free
          noteId := 0
          osc0 := ⟨0, (s.voice v.toNat).osc0.inc⟩
          osc1 := ⟨0, (s.voice v.toNat).osc1.inc⟩
          filtY := 0 }

/-! ### Mixer (46_mixer.md) -/

/-- `MIX.CLEAR` (R196): the geometry, zero words inside it, every other word kept (R62). What other commands do
in a geometry of no channels is not said here (log 17). -/
def Obligations.MixClearSetsGeometry : Prop :=
  ∀ (nch ns : Word) (s : State), s.ready →
    (s.build.maxCh < nch.toNat ∨ s.maxblk.toNat < ns.toNat →
      exec (.mixClear nch ns) s = .next (s.faulted 0x06 (packW0 0x90 0 0))) ∧
    (nch.toNat ≤ s.build.maxCh → ns.toNat ≤ s.maxblk.toNat →
      ∃ t, exec (.mixClear nch ns) s = .next t ∧
        t = { s with numCh := nch, numSamp := ns, out := t.out } ∧
        ∀ c n, readOut t.build t.out c n =
          if c < nch.toNat ∧ n < ns.toNat then 0 else readOut s.build s.out c n)

/-- `MIX.ACC` (R195, R197): the sample added into word i of every channel, wrapped to 32 bits; every other
word kept. That it completes in a geometry of no channels is the model's reading (DEDUCED, log 17): R197's
pseudocode and the decode order of R94 have it so, a corner case of R196 has it fault. -/
def Obligations.MixAccAdds : Prop :=
  ∀ (i : Half) (x : Word) (s : State), s.ready → s.Inv →
    (s.numSamp.toNat ≤ i.toNat →
      exec (.mixAcc i x) s = .next (s.faulted 0x07 (packW0 0x91 0 i))) ∧
    (i.toNat < s.numSamp.toNat →
      ∃ t, exec (.mixAcc i x) s = .next t ∧ t = { s with out := t.out } ∧
        ∀ c n, readOut t.build t.out c n = if c < s.numCh.toNat ∧ n = i.toNat
          then BitVec.ofInt 32 ((readOut s.build s.out c n).toInt + (x.setWidth 16).toInt)
          else readOut s.build s.out c n)

/-- `MIX.READ` and `MIX.READSAT` (R198, R199): the word, and the word clipped to 16 bits. The audio read-out
(R70 (c), R75), in any state, halted or not (R253 (d)) and whoever has the next turn: the clip of a word of the
geometry once a `RENDER` has completed and while none is in progress, no value at any other time or place; that
`rendered` records the first of these is the model's choice (log 7). -/
def Obligations.MixReadsAnswerWords : Prop :=
  (∀ (c : Octet) (i : Half) (s : State), s.ready →
    (s.numCh.toNat ≤ c.toNat ∨ s.numSamp.toNat ≤ i.toNat →
      exec (.mixRead c i) s = .next (s.faulted 0x07 (packW0 0x92 c i)) ∧
      exec (.mixReadsat c i) s = .next (s.faulted 0x07 (packW0 0x93 c i))) ∧
    (c.toNat < s.numCh.toNat → i.toNat < s.numSamp.toNat →
      exec (.mixRead c i) s = .next { s with result := readOut s.build s.out c.toNat i.toNat } ∧
      ∃ x : Word, exec (.mixReadsat c i) s = .next { s with result := x } ∧
        x.toInt = max (-32768) (min 32767 (readOut s.build s.out c.toNat i.toNat).toInt))) ∧
  ∀ (c n : Nat) (s : State),
    (c < s.numCh.toNat → n < s.numSamp.toNat → s.rendered = true → s.phase = .idle →
      s.audioRead c n = some (max (-32768) (min 32767 (readOut s.build s.out c n).toInt))) ∧
    (s.numCh.toNat ≤ c ∨ s.numSamp.toNat ≤ n ∨ s.rendered = false ∨ s.phase ≠ .idle →
      s.audioRead c n = none)

/-- The bound of R200: step body over a cleared geometry leaves in each word of it a sum of at most `POLY`
samples of magnitude at most 2^15. -/
def Obligations.RenderedWordsAreBounded : Prop :=
  ∀ (s t : State) (ns : Word) (ts : List Turn), s.Inv → s.turns = .render :: ts →
    s.phase = .body ns →
    (∀ c n, c < s.numCh.toNat → n < s.numSamp.toNat → readOut s.build s.out c n = 0) →
    step s = .next t →
      ∀ c n, c < t.numCh.toNat → n < t.numSamp.toNat →
        (readOut t.build t.out c n).toInt.natAbs ≤ s.poly.toNat * 2 ^ 15

/-! ### Invariants (10_state.md R37) -/

/-- Both invariants hold of the state after reset (R36, R37), whatever the legal build (R5). -/
def Obligations.ResetMeetsInvariants : Prop :=
  State.reset.Inv ∧ State.reset.PlayInv ∧
    ∀ b : Config.Build, b.Legal → (State.resetOf b).Inv ∧ (State.resetOf b).PlayInv

/-- The invariant `State.Inv` is kept by every step, from every state that has it, whatever commands are
presented, direct unit commands among them (R24, R37 (a), (b), (g), R200). -/
def Obligations.InvKeptByEveryStep : Prop :=
  ∀ s t : State, s.Inv → step s = .next t → t.Inv

/-- The invariant of R37 (c), (d), (e) and R212 is kept by every step that executes no state-changing direct
unit command, whatever waits on the ports: a Free voice is silent at phase 0, a voice's two oscillators run
together, and no two voices in use hold one identifier. -/
def Obligations.PlayInvKeptByPlaying : Prop :=
  ∀ s t : State, s.Inv → s.PlayInv → s.playsNext = true → step s = .next t → t.PlayInv

/-! ### Runs (70_reset_and_hazards.md R283) -/

/-- What is observed of a run (R283). Observations of consecutive stretches append. An end step delivers the
words of the current geometry as they stand after it, and leaves them to the audio sink; no other step delivers a
block. A command that writes `RESULT` ("returns" in R93) and has its effect delivers `RESULT`, a `RDREG` that
names a register also while halted (R253); every other command, a command that faults or is ignored, an illegal
word, and every step but a command of the render port deliver no response. From a halt on, as long as no reset
comes, no block is delivered and the fault line stays asserted (R283 (c)). That `rendered` is set by the end step
(log 7), and which steps deliver a response word (log 18), are the model's choices. -/
def Obligations.RunObservations : Prop :=
  (∀ (j k : Nat) (s : State),
    let o := observe j s
    let p := observe k o.final
    observe (j + k) s = ⟨o.blocks ++ p.blocks, o.responses ++ p.responses, p.final, p.faultLine⟩) ∧
  (∀ (s : State) (ns : Word) (ts : List Turn), s.turns = .render :: ts → s.phase = .finish ns →
    ∃ t, step s = .next t ∧ t.rendered = true ∧
      observe 1 s = ⟨[(List.range s.numCh.toNat).map fun c =>
        (List.range s.numSamp.toNat).map fun n => readOut s.build s.out c n], [], t,
        s.status.halted⟩) ∧
  (∀ (s t : State) (w : Command) (ws : List Command) (ts : List Turn) (i : Instr),
    s.turns = .render :: ts → s.phase = .idle → s.renderIn = w :: ws → decode w = some i →
    exec i s = .next t →
      let op := (encode i).opcode
      let returns := op ∈ [0x30#8, 0x41#8, 0x52#8, 0x53#8, 0x62#8, 0x63#8, 0x71#8, 0x92#8, 0x93#8]
      observe 1 s =
        ⟨[], if returns ∧ t.status.halted = false ∨ op = 0x04#8 ∧ (s.readReg w.sel w.arg16).isSome
          then [t.result] else [],
        { t with renderIn := ws, turns := ts }, t.status.halted⟩) ∧
  (∀ s : State,
    s.turns.head? ≠ some .render ∨ s.phase ≠ .idle ∨ s.renderIn.head?.bind decode = none →
      (observe 1 s).responses = []) ∧
  (∀ s : State, (s.turns.head? ≠ some .render ∨ ∀ ns, s.phase ≠ .finish ns) →
    (observe 1 s).blocks = []) ∧
  ∀ (k : Nat) (s : State), s.Inv → s.status.halted = true → Turn.reset ∉ s.turns →
    (observe k s).blocks = [] ∧ (observe k s).faultLine = true ∧
      (observe k s).final.faultCause = s.faultCause ∧ (observe k s).final.faultW0 = s.faultW0

end Statements
end

