-- ==== Sys2Proof/Laws/Decode.lean ====
section
/-! SUPPORT. The fields of W0 (30_encoding.md R90): a word packed from three fields has those fields, and
a word is packed from the fields it has. -/

namespace Sys2Proof

theorem packW0_toNat (op sel : Octet) (a : Half) :
    (packW0 op sel a).toNat = op.toNat * 2 ^ 24 + sel.toNat * 2 ^ 16 + a.toNat := by
  have e : (packW0 op sel a).toNat = ((op ++ sel : BitVec (8 + 8)) ++ a).toNat := rfl
  rw [e, BitVec.toNat_append, BitVec.toNat_append, ← Nat.shiftLeft_add_eq_or_of_lt a.isLt,
    ← Nat.shiftLeft_add_eq_or_of_lt sel.isLt, Nat.shiftLeft_eq, Nat.shiftLeft_eq]
  omega

theorem opcode_toNat (w : Command) : w.opcode.toNat = w.w0.toNat / 2 ^ 24 := by
  have := w.w0.isLt
  simp only [Command.opcode, BitVec.extractLsb'_toNat, Nat.shiftRight_eq_div_pow]
  omega

theorem sel_toNat (w : Command) : w.sel.toNat = w.w0.toNat / 2 ^ 16 % 2 ^ 8 := by
  simp only [Command.sel, BitVec.extractLsb'_toNat, Nat.shiftRight_eq_div_pow]

theorem arg16_toNat (w : Command) : w.arg16.toNat = w.w0.toNat % 2 ^ 16 := by
  simp only [Command.arg16, BitVec.extractLsb'_toNat, Nat.shiftRight_eq_div_pow, Nat.pow_zero,
    Nat.div_one]

@[simp] theorem packW0_opcode (op sel : Octet) (a : Half) (x y z : Word) :
    Command.opcode ⟨packW0 op sel a, x, y, z⟩ = op := by
  apply BitVec.eq_of_toNat_eq
  have := op.isLt; have := sel.isLt; have := a.isLt
  rw [opcode_toNat, packW0_toNat]
  omega

@[simp] theorem packW0_sel (op sel : Octet) (a : Half) (x y z : Word) :
    Command.sel ⟨packW0 op sel a, x, y, z⟩ = sel := by
  apply BitVec.eq_of_toNat_eq
  have := op.isLt; have := sel.isLt; have := a.isLt
  rw [sel_toNat, packW0_toNat]
  omega

@[simp] theorem packW0_arg16 (op sel : Octet) (a : Half) (x y z : Word) :
    Command.arg16 ⟨packW0 op sel a, x, y, z⟩ = a := by
  apply BitVec.eq_of_toNat_eq
  have := op.isLt; have := sel.isLt; have := a.isLt
  rw [arg16_toNat, packW0_toNat]
  omega

/-- A word W0 is its three fields. -/
theorem packW0_fields (w : Command) : packW0 w.opcode w.sel w.arg16 = w.w0 := by
  apply BitVec.eq_of_toNat_eq
  have := w.w0.isLt
  rw [packW0_toNat, opcode_toNat, sel_toNat, arg16_toNat]
  omega

end Sys2Proof
end

