-- ==== Sys2Proof/Laws/State.lean ====
section
/-! SUPPORT. One lemma per field per named update of the state, true by `rfl`, so that no proof unfolds a
record update; then reading a voice slot after an update. -/

namespace Sys2Proof.Machine

variable (s : State)

/-! ### setCtlIllegal -/

@[simp] theorem setCtlIllegal_status :
    s.setCtlIllegal.status = { s.status with ctlIllegal := true } := rfl
@[simp] theorem setCtlIllegal_faultCause :
    s.setCtlIllegal.faultCause = s.faultCause := rfl
@[simp] theorem setCtlIllegal_faultW0 :
    s.setCtlIllegal.faultW0 = s.faultW0 := rfl
@[simp] theorem setCtlIllegal_srate :
    s.setCtlIllegal.srate = s.srate := rfl
@[simp] theorem setCtlIllegal_maxblk :
    s.setCtlIllegal.maxblk = s.maxblk := rfl
@[simp] theorem setCtlIllegal_poly :
    s.setCtlIllegal.poly = s.poly := rfl
@[simp] theorem setCtlIllegal_numCh :
    s.setCtlIllegal.numCh = s.numCh := rfl
@[simp] theorem setCtlIllegal_numSamp :
    s.setCtlIllegal.numSamp = s.numSamp := rfl
@[simp] theorem setCtlIllegal_assignSeq :
    s.setCtlIllegal.assignSeq = s.assignSeq := rfl
@[simp] theorem setCtlIllegal_result :
    s.setCtlIllegal.result = s.result := rfl
@[simp] theorem setCtlIllegal_cfgCtrl :
    s.setCtlIllegal.cfgCtrl = s.cfgCtrl := rfl
@[simp] theorem setCtlIllegal_cfgRampT :
    s.setCtlIllegal.cfgRampT = s.cfgRampT := rfl
@[simp] theorem setCtlIllegal_cfgAmpScale :
    s.setCtlIllegal.cfgAmpScale = s.cfgAmpScale := rfl
@[simp] theorem setCtlIllegal_store :
    s.setCtlIllegal.store = s.store := rfl
@[simp] theorem setCtlIllegal_envParams :
    s.setCtlIllegal.envParams = s.envParams := rfl
@[simp] theorem setCtlIllegal_filtA :
    s.setCtlIllegal.filtA = s.filtA := rfl
@[simp] theorem setCtlIllegal_mixActive :
    s.setCtlIllegal.mixActive = s.mixActive := rfl
@[simp] theorem setCtlIllegal_decayRampActive :
    s.setCtlIllegal.decayRampActive = s.decayRampActive := rfl
@[simp] theorem setCtlIllegal_grCutoff :
    s.setCtlIllegal.grCutoff = s.grCutoff := rfl
@[simp] theorem setCtlIllegal_grMix :
    s.setCtlIllegal.grMix = s.grMix := rfl
@[simp] theorem setCtlIllegal_grDecayRamp :
    s.setCtlIllegal.grDecayRamp = s.grDecayRamp := rfl
@[simp] theorem setCtlIllegal_voices :
    s.setCtlIllegal.voices = s.voices := rfl
@[simp] theorem setCtlIllegal_evq :
    s.setCtlIllegal.evq = s.evq := rfl
@[simp] theorem setCtlIllegal_out :
    s.setCtlIllegal.out = s.out := rfl
@[simp] theorem setCtlIllegal_phase :
    s.setCtlIllegal.phase = s.phase := rfl
@[simp] theorem setCtlIllegal_rendered :
    s.setCtlIllegal.rendered = s.rendered := rfl
@[simp] theorem setCtlIllegal_build :
    s.setCtlIllegal.build = s.build := rfl
@[simp] theorem setCtlIllegal_renderIn :
    s.setCtlIllegal.renderIn = s.renderIn := rfl
@[simp] theorem setCtlIllegal_controlIn :
    s.setCtlIllegal.controlIn = s.controlIn := rfl
@[simp] theorem setCtlIllegal_turns :
    s.setCtlIllegal.turns = s.turns := rfl
@[simp] theorem setCtlIllegal_port : s.setCtlIllegal.port = s.port := rfl
@[simp] theorem setCtlIllegal_voice (k : Nat) :
    s.setCtlIllegal.voice k = s.voice k := rfl
@[simp] theorem setCtlIllegal_slots : s.setCtlIllegal.slots = s.slots := rfl

/-! ### setNoteDropped -/

@[simp] theorem setNoteDropped_status :
    s.setNoteDropped.status = { s.status with noteDropped := true } := rfl
@[simp] theorem setNoteDropped_faultCause :
    s.setNoteDropped.faultCause = s.faultCause := rfl
@[simp] theorem setNoteDropped_faultW0 :
    s.setNoteDropped.faultW0 = s.faultW0 := rfl
@[simp] theorem setNoteDropped_srate :
    s.setNoteDropped.srate = s.srate := rfl
@[simp] theorem setNoteDropped_maxblk :
    s.setNoteDropped.maxblk = s.maxblk := rfl
@[simp] theorem setNoteDropped_poly :
    s.setNoteDropped.poly = s.poly := rfl
@[simp] theorem setNoteDropped_numCh :
    s.setNoteDropped.numCh = s.numCh := rfl
@[simp] theorem setNoteDropped_numSamp :
    s.setNoteDropped.numSamp = s.numSamp := rfl
@[simp] theorem setNoteDropped_assignSeq :
    s.setNoteDropped.assignSeq = s.assignSeq := rfl
@[simp] theorem setNoteDropped_result :
    s.setNoteDropped.result = s.result := rfl
@[simp] theorem setNoteDropped_cfgCtrl :
    s.setNoteDropped.cfgCtrl = s.cfgCtrl := rfl
@[simp] theorem setNoteDropped_cfgRampT :
    s.setNoteDropped.cfgRampT = s.cfgRampT := rfl
@[simp] theorem setNoteDropped_cfgAmpScale :
    s.setNoteDropped.cfgAmpScale = s.cfgAmpScale := rfl
@[simp] theorem setNoteDropped_store :
    s.setNoteDropped.store = s.store := rfl
@[simp] theorem setNoteDropped_envParams :
    s.setNoteDropped.envParams = s.envParams := rfl
@[simp] theorem setNoteDropped_filtA :
    s.setNoteDropped.filtA = s.filtA := rfl
@[simp] theorem setNoteDropped_mixActive :
    s.setNoteDropped.mixActive = s.mixActive := rfl
@[simp] theorem setNoteDropped_decayRampActive :
    s.setNoteDropped.decayRampActive = s.decayRampActive := rfl
@[simp] theorem setNoteDropped_grCutoff :
    s.setNoteDropped.grCutoff = s.grCutoff := rfl
@[simp] theorem setNoteDropped_grMix :
    s.setNoteDropped.grMix = s.grMix := rfl
@[simp] theorem setNoteDropped_grDecayRamp :
    s.setNoteDropped.grDecayRamp = s.grDecayRamp := rfl
@[simp] theorem setNoteDropped_voices :
    s.setNoteDropped.voices = s.voices := rfl
@[simp] theorem setNoteDropped_evq :
    s.setNoteDropped.evq = s.evq := rfl
@[simp] theorem setNoteDropped_out :
    s.setNoteDropped.out = s.out := rfl
@[simp] theorem setNoteDropped_phase :
    s.setNoteDropped.phase = s.phase := rfl
@[simp] theorem setNoteDropped_rendered :
    s.setNoteDropped.rendered = s.rendered := rfl
@[simp] theorem setNoteDropped_build :
    s.setNoteDropped.build = s.build := rfl
@[simp] theorem setNoteDropped_renderIn :
    s.setNoteDropped.renderIn = s.renderIn := rfl
@[simp] theorem setNoteDropped_controlIn :
    s.setNoteDropped.controlIn = s.controlIn := rfl
@[simp] theorem setNoteDropped_turns :
    s.setNoteDropped.turns = s.turns := rfl
@[simp] theorem setNoteDropped_port : s.setNoteDropped.port = s.port := rfl
@[simp] theorem setNoteDropped_voice (k : Nat) :
    s.setNoteDropped.voice k = s.voice k := rfl
@[simp] theorem setNoteDropped_slots : s.setNoteDropped.slots = s.slots := rfl

/-! ### setEvqOvf -/

@[simp] theorem setEvqOvf_status :
    s.setEvqOvf.status = { s.status with evqOvf := true } := rfl
@[simp] theorem setEvqOvf_faultCause :
    s.setEvqOvf.faultCause = s.faultCause := rfl
@[simp] theorem setEvqOvf_faultW0 :
    s.setEvqOvf.faultW0 = s.faultW0 := rfl
@[simp] theorem setEvqOvf_srate :
    s.setEvqOvf.srate = s.srate := rfl
@[simp] theorem setEvqOvf_maxblk :
    s.setEvqOvf.maxblk = s.maxblk := rfl
@[simp] theorem setEvqOvf_poly :
    s.setEvqOvf.poly = s.poly := rfl
@[simp] theorem setEvqOvf_numCh :
    s.setEvqOvf.numCh = s.numCh := rfl
@[simp] theorem setEvqOvf_numSamp :
    s.setEvqOvf.numSamp = s.numSamp := rfl
@[simp] theorem setEvqOvf_assignSeq :
    s.setEvqOvf.assignSeq = s.assignSeq := rfl
@[simp] theorem setEvqOvf_result :
    s.setEvqOvf.result = s.result := rfl
@[simp] theorem setEvqOvf_cfgCtrl :
    s.setEvqOvf.cfgCtrl = s.cfgCtrl := rfl
@[simp] theorem setEvqOvf_cfgRampT :
    s.setEvqOvf.cfgRampT = s.cfgRampT := rfl
@[simp] theorem setEvqOvf_cfgAmpScale :
    s.setEvqOvf.cfgAmpScale = s.cfgAmpScale := rfl
@[simp] theorem setEvqOvf_store :
    s.setEvqOvf.store = s.store := rfl
@[simp] theorem setEvqOvf_envParams :
    s.setEvqOvf.envParams = s.envParams := rfl
@[simp] theorem setEvqOvf_filtA :
    s.setEvqOvf.filtA = s.filtA := rfl
@[simp] theorem setEvqOvf_mixActive :
    s.setEvqOvf.mixActive = s.mixActive := rfl
@[simp] theorem setEvqOvf_decayRampActive :
    s.setEvqOvf.decayRampActive = s.decayRampActive := rfl
@[simp] theorem setEvqOvf_grCutoff :
    s.setEvqOvf.grCutoff = s.grCutoff := rfl
@[simp] theorem setEvqOvf_grMix :
    s.setEvqOvf.grMix = s.grMix := rfl
@[simp] theorem setEvqOvf_grDecayRamp :
    s.setEvqOvf.grDecayRamp = s.grDecayRamp := rfl
@[simp] theorem setEvqOvf_voices :
    s.setEvqOvf.voices = s.voices := rfl
@[simp] theorem setEvqOvf_evq :
    s.setEvqOvf.evq = s.evq := rfl
@[simp] theorem setEvqOvf_out :
    s.setEvqOvf.out = s.out := rfl
@[simp] theorem setEvqOvf_phase :
    s.setEvqOvf.phase = s.phase := rfl
@[simp] theorem setEvqOvf_rendered :
    s.setEvqOvf.rendered = s.rendered := rfl
@[simp] theorem setEvqOvf_build :
    s.setEvqOvf.build = s.build := rfl
@[simp] theorem setEvqOvf_renderIn :
    s.setEvqOvf.renderIn = s.renderIn := rfl
@[simp] theorem setEvqOvf_controlIn :
    s.setEvqOvf.controlIn = s.controlIn := rfl
@[simp] theorem setEvqOvf_turns :
    s.setEvqOvf.turns = s.turns := rfl
@[simp] theorem setEvqOvf_port : s.setEvqOvf.port = s.port := rfl
@[simp] theorem setEvqOvf_voice (k : Nat) :
    s.setEvqOvf.voice k = s.voice k := rfl
@[simp] theorem setEvqOvf_slots : s.setEvqOvf.slots = s.slots := rfl

/-! ### raise -/

@[simp] theorem raise_status (c : FaultCause) (w : Word) :
    (s.raise c w).status = { s.status with halted := true } := rfl
@[simp] theorem raise_faultCause (c : FaultCause) (w : Word) :
    (s.raise c w).faultCause = c.code := rfl
@[simp] theorem raise_faultW0 (c : FaultCause) (w : Word) :
    (s.raise c w).faultW0 = w := rfl
@[simp] theorem raise_srate (c : FaultCause) (w : Word) :
    (s.raise c w).srate = s.srate := rfl
@[simp] theorem raise_maxblk (c : FaultCause) (w : Word) :
    (s.raise c w).maxblk = s.maxblk := rfl
@[simp] theorem raise_poly (c : FaultCause) (w : Word) :
    (s.raise c w).poly = s.poly := rfl
@[simp] theorem raise_numCh (c : FaultCause) (w : Word) :
    (s.raise c w).numCh = s.numCh := rfl
@[simp] theorem raise_numSamp (c : FaultCause) (w : Word) :
    (s.raise c w).numSamp = s.numSamp := rfl
@[simp] theorem raise_assignSeq (c : FaultCause) (w : Word) :
    (s.raise c w).assignSeq = s.assignSeq := rfl
@[simp] theorem raise_result (c : FaultCause) (w : Word) :
    (s.raise c w).result = s.result := rfl
@[simp] theorem raise_cfgCtrl (c : FaultCause) (w : Word) :
    (s.raise c w).cfgCtrl = s.cfgCtrl := rfl
@[simp] theorem raise_cfgRampT (c : FaultCause) (w : Word) :
    (s.raise c w).cfgRampT = s.cfgRampT := rfl
@[simp] theorem raise_cfgAmpScale (c : FaultCause) (w : Word) :
    (s.raise c w).cfgAmpScale = s.cfgAmpScale := rfl
@[simp] theorem raise_store (c : FaultCause) (w : Word) :
    (s.raise c w).store = s.store := rfl
@[simp] theorem raise_envParams (c : FaultCause) (w : Word) :
    (s.raise c w).envParams = s.envParams := rfl
@[simp] theorem raise_filtA (c : FaultCause) (w : Word) :
    (s.raise c w).filtA = s.filtA := rfl
@[simp] theorem raise_mixActive (c : FaultCause) (w : Word) :
    (s.raise c w).mixActive = s.mixActive := rfl
@[simp] theorem raise_decayRampActive (c : FaultCause) (w : Word) :
    (s.raise c w).decayRampActive = s.decayRampActive := rfl
@[simp] theorem raise_grCutoff (c : FaultCause) (w : Word) :
    (s.raise c w).grCutoff = s.grCutoff := rfl
@[simp] theorem raise_grMix (c : FaultCause) (w : Word) :
    (s.raise c w).grMix = s.grMix := rfl
@[simp] theorem raise_grDecayRamp (c : FaultCause) (w : Word) :
    (s.raise c w).grDecayRamp = s.grDecayRamp := rfl
@[simp] theorem raise_voices (c : FaultCause) (w : Word) :
    (s.raise c w).voices = s.voices := rfl
@[simp] theorem raise_evq (c : FaultCause) (w : Word) :
    (s.raise c w).evq = s.evq := rfl
@[simp] theorem raise_out (c : FaultCause) (w : Word) :
    (s.raise c w).out = s.out := rfl
@[simp] theorem raise_phase (c : FaultCause) (w : Word) :
    (s.raise c w).phase = s.phase := rfl
@[simp] theorem raise_rendered (c : FaultCause) (w : Word) :
    (s.raise c w).rendered = s.rendered := rfl
@[simp] theorem raise_build (c : FaultCause) (w : Word) :
    (s.raise c w).build = s.build := rfl
@[simp] theorem raise_renderIn (c : FaultCause) (w : Word) :
    (s.raise c w).renderIn = s.renderIn := rfl
@[simp] theorem raise_controlIn (c : FaultCause) (w : Word) :
    (s.raise c w).controlIn = s.controlIn := rfl
@[simp] theorem raise_turns (c : FaultCause) (w : Word) :
    (s.raise c w).turns = s.turns := rfl
@[simp] theorem raise_port (c : FaultCause) (w : Word) : (s.raise c w).port = s.port := rfl
@[simp] theorem raise_voice (c : FaultCause) (w : Word) (k : Nat) :
    (s.raise c w).voice k = s.voice k := rfl
@[simp] theorem raise_slots (c : FaultCause) (w : Word) : (s.raise c w).slots = s.slots := rfl

/-! ### setVoice -/

@[simp] theorem setVoice_status (v : Nat) (x : Voice) :
    (s.setVoice v x).status = s.status := rfl
@[simp] theorem setVoice_faultCause (v : Nat) (x : Voice) :
    (s.setVoice v x).faultCause = s.faultCause := rfl
@[simp] theorem setVoice_faultW0 (v : Nat) (x : Voice) :
    (s.setVoice v x).faultW0 = s.faultW0 := rfl
@[simp] theorem setVoice_srate (v : Nat) (x : Voice) :
    (s.setVoice v x).srate = s.srate := rfl
@[simp] theorem setVoice_maxblk (v : Nat) (x : Voice) :
    (s.setVoice v x).maxblk = s.maxblk := rfl
@[simp] theorem setVoice_poly (v : Nat) (x : Voice) :
    (s.setVoice v x).poly = s.poly := rfl
@[simp] theorem setVoice_numCh (v : Nat) (x : Voice) :
    (s.setVoice v x).numCh = s.numCh := rfl
@[simp] theorem setVoice_numSamp (v : Nat) (x : Voice) :
    (s.setVoice v x).numSamp = s.numSamp := rfl
@[simp] theorem setVoice_assignSeq (v : Nat) (x : Voice) :
    (s.setVoice v x).assignSeq = s.assignSeq := rfl
@[simp] theorem setVoice_result (v : Nat) (x : Voice) :
    (s.setVoice v x).result = s.result := rfl
@[simp] theorem setVoice_cfgCtrl (v : Nat) (x : Voice) :
    (s.setVoice v x).cfgCtrl = s.cfgCtrl := rfl
@[simp] theorem setVoice_cfgRampT (v : Nat) (x : Voice) :
    (s.setVoice v x).cfgRampT = s.cfgRampT := rfl
@[simp] theorem setVoice_cfgAmpScale (v : Nat) (x : Voice) :
    (s.setVoice v x).cfgAmpScale = s.cfgAmpScale := rfl
@[simp] theorem setVoice_store (v : Nat) (x : Voice) :
    (s.setVoice v x).store = s.store := rfl
@[simp] theorem setVoice_envParams (v : Nat) (x : Voice) :
    (s.setVoice v x).envParams = s.envParams := rfl
@[simp] theorem setVoice_filtA (v : Nat) (x : Voice) :
    (s.setVoice v x).filtA = s.filtA := rfl
@[simp] theorem setVoice_mixActive (v : Nat) (x : Voice) :
    (s.setVoice v x).mixActive = s.mixActive := rfl
@[simp] theorem setVoice_decayRampActive (v : Nat) (x : Voice) :
    (s.setVoice v x).decayRampActive = s.decayRampActive := rfl
@[simp] theorem setVoice_grCutoff (v : Nat) (x : Voice) :
    (s.setVoice v x).grCutoff = s.grCutoff := rfl
@[simp] theorem setVoice_grMix (v : Nat) (x : Voice) :
    (s.setVoice v x).grMix = s.grMix := rfl
@[simp] theorem setVoice_grDecayRamp (v : Nat) (x : Voice) :
    (s.setVoice v x).grDecayRamp = s.grDecayRamp := rfl
@[simp] theorem setVoice_voices (v : Nat) (x : Voice) :
    (s.setVoice v x).voices = s.voices.set v x := rfl
@[simp] theorem setVoice_evq (v : Nat) (x : Voice) :
    (s.setVoice v x).evq = s.evq := rfl
@[simp] theorem setVoice_out (v : Nat) (x : Voice) :
    (s.setVoice v x).out = s.out := rfl
@[simp] theorem setVoice_phase (v : Nat) (x : Voice) :
    (s.setVoice v x).phase = s.phase := rfl
@[simp] theorem setVoice_rendered (v : Nat) (x : Voice) :
    (s.setVoice v x).rendered = s.rendered := rfl
@[simp] theorem setVoice_build (v : Nat) (x : Voice) :
    (s.setVoice v x).build = s.build := rfl
@[simp] theorem setVoice_renderIn (v : Nat) (x : Voice) :
    (s.setVoice v x).renderIn = s.renderIn := rfl
@[simp] theorem setVoice_controlIn (v : Nat) (x : Voice) :
    (s.setVoice v x).controlIn = s.controlIn := rfl
@[simp] theorem setVoice_turns (v : Nat) (x : Voice) :
    (s.setVoice v x).turns = s.turns := rfl
@[simp] theorem setVoice_port (v : Nat) (x : Voice) : (s.setVoice v x).port = s.port := rfl
@[simp] theorem setVoice_slots (v : Nat) (x : Voice) : (s.setVoice v x).slots = s.slots :=
  congrArg (fun n => (List.range n).filter fun w => w < s.poly.toNat) List.length_set

/-! ### updVoice -/

@[simp] theorem updVoice_status (v : Nat) (f : Voice → Voice) :
    (s.updVoice v f).status = s.status := rfl
@[simp] theorem updVoice_faultCause (v : Nat) (f : Voice → Voice) :
    (s.updVoice v f).faultCause = s.faultCause := rfl
@[simp] theorem updVoice_faultW0 (v : Nat) (f : Voice → Voice) :
    (s.updVoice v f).faultW0 = s.faultW0 := rfl
@[simp] theorem updVoice_srate (v : Nat) (f : Voice → Voice) :
    (s.updVoice v f).srate = s.srate := rfl
@[simp] theorem updVoice_maxblk (v : Nat) (f : Voice → Voice) :
    (s.updVoice v f).maxblk = s.maxblk := rfl
@[simp] theorem updVoice_poly (v : Nat) (f : Voice → Voice) :
    (s.updVoice v f).poly = s.poly := rfl
@[simp] theorem updVoice_numCh (v : Nat) (f : Voice → Voice) :
    (s.updVoice v f).numCh = s.numCh := rfl
@[simp] theorem updVoice_numSamp (v : Nat) (f : Voice → Voice) :
    (s.updVoice v f).numSamp = s.numSamp := rfl
@[simp] theorem updVoice_assignSeq (v : Nat) (f : Voice → Voice) :
    (s.updVoice v f).assignSeq = s.assignSeq := rfl
@[simp] theorem updVoice_result (v : Nat) (f : Voice → Voice) :
    (s.updVoice v f).result = s.result := rfl
@[simp] theorem updVoice_cfgCtrl (v : Nat) (f : Voice → Voice) :
    (s.updVoice v f).cfgCtrl = s.cfgCtrl := rfl
@[simp] theorem updVoice_cfgRampT (v : Nat) (f : Voice → Voice) :
    (s.updVoice v f).cfgRampT = s.cfgRampT := rfl
@[simp] theorem updVoice_cfgAmpScale (v : Nat) (f : Voice → Voice) :
    (s.updVoice v f).cfgAmpScale = s.cfgAmpScale := rfl
@[simp] theorem updVoice_store (v : Nat) (f : Voice → Voice) :
    (s.updVoice v f).store = s.store := rfl
@[simp] theorem updVoice_envParams (v : Nat) (f : Voice → Voice) :
    (s.updVoice v f).envParams = s.envParams := rfl
@[simp] theorem updVoice_filtA (v : Nat) (f : Voice → Voice) :
    (s.updVoice v f).filtA = s.filtA := rfl
@[simp] theorem updVoice_mixActive (v : Nat) (f : Voice → Voice) :
    (s.updVoice v f).mixActive = s.mixActive := rfl
@[simp] theorem updVoice_decayRampActive (v : Nat) (f : Voice → Voice) :
    (s.updVoice v f).decayRampActive = s.decayRampActive := rfl
@[simp] theorem updVoice_grCutoff (v : Nat) (f : Voice → Voice) :
    (s.updVoice v f).grCutoff = s.grCutoff := rfl
@[simp] theorem updVoice_grMix (v : Nat) (f : Voice → Voice) :
    (s.updVoice v f).grMix = s.grMix := rfl
@[simp] theorem updVoice_grDecayRamp (v : Nat) (f : Voice → Voice) :
    (s.updVoice v f).grDecayRamp = s.grDecayRamp := rfl
@[simp] theorem updVoice_voices (v : Nat) (f : Voice → Voice) :
    (s.updVoice v f).voices = s.voices.set v (f (s.voice v)) := rfl
@[simp] theorem updVoice_evq (v : Nat) (f : Voice → Voice) :
    (s.updVoice v f).evq = s.evq := rfl
@[simp] theorem updVoice_out (v : Nat) (f : Voice → Voice) :
    (s.updVoice v f).out = s.out := rfl
@[simp] theorem updVoice_phase (v : Nat) (f : Voice → Voice) :
    (s.updVoice v f).phase = s.phase := rfl
@[simp] theorem updVoice_rendered (v : Nat) (f : Voice → Voice) :
    (s.updVoice v f).rendered = s.rendered := rfl
@[simp] theorem updVoice_build (v : Nat) (f : Voice → Voice) :
    (s.updVoice v f).build = s.build := rfl
@[simp] theorem updVoice_renderIn (v : Nat) (f : Voice → Voice) :
    (s.updVoice v f).renderIn = s.renderIn := rfl
@[simp] theorem updVoice_controlIn (v : Nat) (f : Voice → Voice) :
    (s.updVoice v f).controlIn = s.controlIn := rfl
@[simp] theorem updVoice_turns (v : Nat) (f : Voice → Voice) :
    (s.updVoice v f).turns = s.turns := rfl
@[simp] theorem updVoice_port (v : Nat) (f : Voice → Voice) : (s.updVoice v f).port = s.port := rfl
@[simp] theorem updVoice_slots (v : Nat) (f : Voice → Voice) : (s.updVoice v f).slots = s.slots :=
  congrArg (fun n => (List.range n).filter fun w => w < s.poly.toNat) List.length_set

/-! ### setResult -/

@[simp] theorem setResult_status (w : Word) :
    (s.setResult w).status = s.status := rfl
@[simp] theorem setResult_faultCause (w : Word) :
    (s.setResult w).faultCause = s.faultCause := rfl
@[simp] theorem setResult_faultW0 (w : Word) :
    (s.setResult w).faultW0 = s.faultW0 := rfl
@[simp] theorem setResult_srate (w : Word) :
    (s.setResult w).srate = s.srate := rfl
@[simp] theorem setResult_maxblk (w : Word) :
    (s.setResult w).maxblk = s.maxblk := rfl
@[simp] theorem setResult_poly (w : Word) :
    (s.setResult w).poly = s.poly := rfl
@[simp] theorem setResult_numCh (w : Word) :
    (s.setResult w).numCh = s.numCh := rfl
@[simp] theorem setResult_numSamp (w : Word) :
    (s.setResult w).numSamp = s.numSamp := rfl
@[simp] theorem setResult_assignSeq (w : Word) :
    (s.setResult w).assignSeq = s.assignSeq := rfl
@[simp] theorem setResult_result (w : Word) :
    (s.setResult w).result = w := rfl
@[simp] theorem setResult_cfgCtrl (w : Word) :
    (s.setResult w).cfgCtrl = s.cfgCtrl := rfl
@[simp] theorem setResult_cfgRampT (w : Word) :
    (s.setResult w).cfgRampT = s.cfgRampT := rfl
@[simp] theorem setResult_cfgAmpScale (w : Word) :
    (s.setResult w).cfgAmpScale = s.cfgAmpScale := rfl
@[simp] theorem setResult_store (w : Word) :
    (s.setResult w).store = s.store := rfl
@[simp] theorem setResult_envParams (w : Word) :
    (s.setResult w).envParams = s.envParams := rfl
@[simp] theorem setResult_filtA (w : Word) :
    (s.setResult w).filtA = s.filtA := rfl
@[simp] theorem setResult_mixActive (w : Word) :
    (s.setResult w).mixActive = s.mixActive := rfl
@[simp] theorem setResult_decayRampActive (w : Word) :
    (s.setResult w).decayRampActive = s.decayRampActive := rfl
@[simp] theorem setResult_grCutoff (w : Word) :
    (s.setResult w).grCutoff = s.grCutoff := rfl
@[simp] theorem setResult_grMix (w : Word) :
    (s.setResult w).grMix = s.grMix := rfl
@[simp] theorem setResult_grDecayRamp (w : Word) :
    (s.setResult w).grDecayRamp = s.grDecayRamp := rfl
@[simp] theorem setResult_voices (w : Word) :
    (s.setResult w).voices = s.voices := rfl
@[simp] theorem setResult_evq (w : Word) :
    (s.setResult w).evq = s.evq := rfl
@[simp] theorem setResult_out (w : Word) :
    (s.setResult w).out = s.out := rfl
@[simp] theorem setResult_phase (w : Word) :
    (s.setResult w).phase = s.phase := rfl
@[simp] theorem setResult_rendered (w : Word) :
    (s.setResult w).rendered = s.rendered := rfl
@[simp] theorem setResult_build (w : Word) :
    (s.setResult w).build = s.build := rfl
@[simp] theorem setResult_renderIn (w : Word) :
    (s.setResult w).renderIn = s.renderIn := rfl
@[simp] theorem setResult_controlIn (w : Word) :
    (s.setResult w).controlIn = s.controlIn := rfl
@[simp] theorem setResult_turns (w : Word) :
    (s.setResult w).turns = s.turns := rfl
@[simp] theorem setResult_port (w : Word) : (s.setResult w).port = s.port := rfl
@[simp] theorem setResult_voice (w : Word) (k : Nat) :
    (s.setResult w).voice k = s.voice k := rfl
@[simp] theorem setResult_slots (w : Word) : (s.setResult w).slots = s.slots := rfl

/-! ### evqFlush -/

@[simp] theorem evqFlush_status :
    s.evqFlush.status = s.status := rfl
@[simp] theorem evqFlush_faultCause :
    s.evqFlush.faultCause = s.faultCause := rfl
@[simp] theorem evqFlush_faultW0 :
    s.evqFlush.faultW0 = s.faultW0 := rfl
@[simp] theorem evqFlush_srate :
    s.evqFlush.srate = s.srate := rfl
@[simp] theorem evqFlush_maxblk :
    s.evqFlush.maxblk = s.maxblk := rfl
@[simp] theorem evqFlush_poly :
    s.evqFlush.poly = s.poly := rfl
@[simp] theorem evqFlush_numCh :
    s.evqFlush.numCh = s.numCh := rfl
@[simp] theorem evqFlush_numSamp :
    s.evqFlush.numSamp = s.numSamp := rfl
@[simp] theorem evqFlush_assignSeq :
    s.evqFlush.assignSeq = s.assignSeq := rfl
@[simp] theorem evqFlush_result :
    s.evqFlush.result = s.result := rfl
@[simp] theorem evqFlush_cfgCtrl :
    s.evqFlush.cfgCtrl = s.cfgCtrl := rfl
@[simp] theorem evqFlush_cfgRampT :
    s.evqFlush.cfgRampT = s.cfgRampT := rfl
@[simp] theorem evqFlush_cfgAmpScale :
    s.evqFlush.cfgAmpScale = s.cfgAmpScale := rfl
@[simp] theorem evqFlush_store :
    s.evqFlush.store = s.store := rfl
@[simp] theorem evqFlush_envParams :
    s.evqFlush.envParams = s.envParams := rfl
@[simp] theorem evqFlush_filtA :
    s.evqFlush.filtA = s.filtA := rfl
@[simp] theorem evqFlush_mixActive :
    s.evqFlush.mixActive = s.mixActive := rfl
@[simp] theorem evqFlush_decayRampActive :
    s.evqFlush.decayRampActive = s.decayRampActive := rfl
@[simp] theorem evqFlush_grCutoff :
    s.evqFlush.grCutoff = s.grCutoff := rfl
@[simp] theorem evqFlush_grMix :
    s.evqFlush.grMix = s.grMix := rfl
@[simp] theorem evqFlush_grDecayRamp :
    s.evqFlush.grDecayRamp = s.grDecayRamp := rfl
@[simp] theorem evqFlush_voices :
    s.evqFlush.voices = s.voices := rfl
@[simp] theorem evqFlush_evq :
    s.evqFlush.evq = [] := rfl
@[simp] theorem evqFlush_out :
    s.evqFlush.out = s.out := rfl
@[simp] theorem evqFlush_phase :
    s.evqFlush.phase = s.phase := rfl
@[simp] theorem evqFlush_rendered :
    s.evqFlush.rendered = s.rendered := rfl
@[simp] theorem evqFlush_build :
    s.evqFlush.build = s.build := rfl
@[simp] theorem evqFlush_renderIn :
    s.evqFlush.renderIn = s.renderIn := rfl
@[simp] theorem evqFlush_controlIn :
    s.evqFlush.controlIn = s.controlIn := rfl
@[simp] theorem evqFlush_turns :
    s.evqFlush.turns = s.turns := rfl
@[simp] theorem evqFlush_port : s.evqFlush.port = s.port := rfl
@[simp] theorem evqFlush_voice (k : Nat) :
    s.evqFlush.voice k = s.voice k := rfl
@[simp] theorem evqFlush_slots : s.evqFlush.slots = s.slots := rfl

/-! ### loadEnvParams -/

@[simp] theorem loadEnvParams_status :
    s.loadEnvParams.status = s.status := rfl
@[simp] theorem loadEnvParams_faultCause :
    s.loadEnvParams.faultCause = s.faultCause := rfl
@[simp] theorem loadEnvParams_faultW0 :
    s.loadEnvParams.faultW0 = s.faultW0 := rfl
@[simp] theorem loadEnvParams_srate :
    s.loadEnvParams.srate = s.srate := rfl
@[simp] theorem loadEnvParams_maxblk :
    s.loadEnvParams.maxblk = s.maxblk := rfl
@[simp] theorem loadEnvParams_poly :
    s.loadEnvParams.poly = s.poly := rfl
@[simp] theorem loadEnvParams_numCh :
    s.loadEnvParams.numCh = s.numCh := rfl
@[simp] theorem loadEnvParams_numSamp :
    s.loadEnvParams.numSamp = s.numSamp := rfl
@[simp] theorem loadEnvParams_assignSeq :
    s.loadEnvParams.assignSeq = s.assignSeq := rfl
@[simp] theorem loadEnvParams_result :
    s.loadEnvParams.result = s.result := rfl
@[simp] theorem loadEnvParams_cfgCtrl :
    s.loadEnvParams.cfgCtrl = s.cfgCtrl := rfl
@[simp] theorem loadEnvParams_cfgRampT :
    s.loadEnvParams.cfgRampT = s.cfgRampT := rfl
@[simp] theorem loadEnvParams_cfgAmpScale :
    s.loadEnvParams.cfgAmpScale = s.cfgAmpScale := rfl
@[simp] theorem loadEnvParams_store :
    s.loadEnvParams.store = s.store := rfl
@[simp] theorem loadEnvParams_envParams :
    s.loadEnvParams.envParams = envSnapshot s.store s.srate := rfl
@[simp] theorem loadEnvParams_filtA :
    s.loadEnvParams.filtA = s.filtA := rfl
@[simp] theorem loadEnvParams_mixActive :
    s.loadEnvParams.mixActive = s.mixActive := rfl
@[simp] theorem loadEnvParams_decayRampActive :
    s.loadEnvParams.decayRampActive = s.decayRampActive := rfl
@[simp] theorem loadEnvParams_grCutoff :
    s.loadEnvParams.grCutoff = s.grCutoff := rfl
@[simp] theorem loadEnvParams_grMix :
    s.loadEnvParams.grMix = s.grMix := rfl
@[simp] theorem loadEnvParams_grDecayRamp :
    s.loadEnvParams.grDecayRamp = s.grDecayRamp := rfl
@[simp] theorem loadEnvParams_voices :
    s.loadEnvParams.voices = s.voices := rfl
@[simp] theorem loadEnvParams_evq :
    s.loadEnvParams.evq = s.evq := rfl
@[simp] theorem loadEnvParams_out :
    s.loadEnvParams.out = s.out := rfl
@[simp] theorem loadEnvParams_phase :
    s.loadEnvParams.phase = s.phase := rfl
@[simp] theorem loadEnvParams_rendered :
    s.loadEnvParams.rendered = s.rendered := rfl
@[simp] theorem loadEnvParams_build :
    s.loadEnvParams.build = s.build := rfl
@[simp] theorem loadEnvParams_renderIn :
    s.loadEnvParams.renderIn = s.renderIn := rfl
@[simp] theorem loadEnvParams_controlIn :
    s.loadEnvParams.controlIn = s.controlIn := rfl
@[simp] theorem loadEnvParams_turns :
    s.loadEnvParams.turns = s.turns := rfl
@[simp] theorem loadEnvParams_port : s.loadEnvParams.port = s.port := rfl
@[simp] theorem loadEnvParams_voice (k : Nat) :
    s.loadEnvParams.voice k = s.voice k := rfl
@[simp] theorem loadEnvParams_slots : s.loadEnvParams.slots = s.slots := rfl

/-! ### loadFilterCoef -/

@[simp] theorem loadFilterCoef_status (f fs : Word) :
    (s.loadFilterCoef f fs).status = s.status := rfl
@[simp] theorem loadFilterCoef_faultCause (f fs : Word) :
    (s.loadFilterCoef f fs).faultCause = s.faultCause := rfl
@[simp] theorem loadFilterCoef_faultW0 (f fs : Word) :
    (s.loadFilterCoef f fs).faultW0 = s.faultW0 := rfl
@[simp] theorem loadFilterCoef_srate (f fs : Word) :
    (s.loadFilterCoef f fs).srate = s.srate := rfl
@[simp] theorem loadFilterCoef_maxblk (f fs : Word) :
    (s.loadFilterCoef f fs).maxblk = s.maxblk := rfl
@[simp] theorem loadFilterCoef_poly (f fs : Word) :
    (s.loadFilterCoef f fs).poly = s.poly := rfl
@[simp] theorem loadFilterCoef_numCh (f fs : Word) :
    (s.loadFilterCoef f fs).numCh = s.numCh := rfl
@[simp] theorem loadFilterCoef_numSamp (f fs : Word) :
    (s.loadFilterCoef f fs).numSamp = s.numSamp := rfl
@[simp] theorem loadFilterCoef_assignSeq (f fs : Word) :
    (s.loadFilterCoef f fs).assignSeq = s.assignSeq := rfl
@[simp] theorem loadFilterCoef_result (f fs : Word) :
    (s.loadFilterCoef f fs).result = s.result := rfl
@[simp] theorem loadFilterCoef_cfgCtrl (f fs : Word) :
    (s.loadFilterCoef f fs).cfgCtrl = s.cfgCtrl := rfl
@[simp] theorem loadFilterCoef_cfgRampT (f fs : Word) :
    (s.loadFilterCoef f fs).cfgRampT = s.cfgRampT := rfl
@[simp] theorem loadFilterCoef_cfgAmpScale (f fs : Word) :
    (s.loadFilterCoef f fs).cfgAmpScale = s.cfgAmpScale := rfl
@[simp] theorem loadFilterCoef_store (f fs : Word) :
    (s.loadFilterCoef f fs).store = s.store := rfl
@[simp] theorem loadFilterCoef_envParams (f fs : Word) :
    (s.loadFilterCoef f fs).envParams = s.envParams := rfl
@[simp] theorem loadFilterCoef_filtA (f fs : Word) :
    (s.loadFilterCoef f fs).filtA = filterCoef s.build f fs := rfl
@[simp] theorem loadFilterCoef_mixActive (f fs : Word) :
    (s.loadFilterCoef f fs).mixActive = s.mixActive := rfl
@[simp] theorem loadFilterCoef_decayRampActive (f fs : Word) :
    (s.loadFilterCoef f fs).decayRampActive = s.decayRampActive := rfl
@[simp] theorem loadFilterCoef_grCutoff (f fs : Word) :
    (s.loadFilterCoef f fs).grCutoff = s.grCutoff := rfl
@[simp] theorem loadFilterCoef_grMix (f fs : Word) :
    (s.loadFilterCoef f fs).grMix = s.grMix := rfl
@[simp] theorem loadFilterCoef_grDecayRamp (f fs : Word) :
    (s.loadFilterCoef f fs).grDecayRamp = s.grDecayRamp := rfl
@[simp] theorem loadFilterCoef_voices (f fs : Word) :
    (s.loadFilterCoef f fs).voices = s.voices := rfl
@[simp] theorem loadFilterCoef_evq (f fs : Word) :
    (s.loadFilterCoef f fs).evq = s.evq := rfl
@[simp] theorem loadFilterCoef_out (f fs : Word) :
    (s.loadFilterCoef f fs).out = s.out := rfl
@[simp] theorem loadFilterCoef_phase (f fs : Word) :
    (s.loadFilterCoef f fs).phase = s.phase := rfl
@[simp] theorem loadFilterCoef_rendered (f fs : Word) :
    (s.loadFilterCoef f fs).rendered = s.rendered := rfl
@[simp] theorem loadFilterCoef_build (f fs : Word) :
    (s.loadFilterCoef f fs).build = s.build := rfl
@[simp] theorem loadFilterCoef_renderIn (f fs : Word) :
    (s.loadFilterCoef f fs).renderIn = s.renderIn := rfl
@[simp] theorem loadFilterCoef_controlIn (f fs : Word) :
    (s.loadFilterCoef f fs).controlIn = s.controlIn := rfl
@[simp] theorem loadFilterCoef_turns (f fs : Word) :
    (s.loadFilterCoef f fs).turns = s.turns := rfl
@[simp] theorem loadFilterCoef_port (f fs : Word) : (s.loadFilterCoef f fs).port = s.port := rfl
@[simp] theorem loadFilterCoef_voice (f fs : Word) (k : Nat) :
    (s.loadFilterCoef f fs).voice k = s.voice k := rfl
@[simp] theorem loadFilterCoef_slots (f fs : Word) : (s.loadFilterCoef f fs).slots = s.slots := rfl

/-! ### mixClear -/

@[simp] theorem mixClear_status (nch ns : Word) :
    (s.mixClear nch ns).status = s.status := rfl
@[simp] theorem mixClear_faultCause (nch ns : Word) :
    (s.mixClear nch ns).faultCause = s.faultCause := rfl
@[simp] theorem mixClear_faultW0 (nch ns : Word) :
    (s.mixClear nch ns).faultW0 = s.faultW0 := rfl
@[simp] theorem mixClear_srate (nch ns : Word) :
    (s.mixClear nch ns).srate = s.srate := rfl
@[simp] theorem mixClear_maxblk (nch ns : Word) :
    (s.mixClear nch ns).maxblk = s.maxblk := rfl
@[simp] theorem mixClear_poly (nch ns : Word) :
    (s.mixClear nch ns).poly = s.poly := rfl
@[simp] theorem mixClear_numCh (nch ns : Word) :
    (s.mixClear nch ns).numCh = nch := rfl
@[simp] theorem mixClear_numSamp (nch ns : Word) :
    (s.mixClear nch ns).numSamp = ns := rfl
@[simp] theorem mixClear_assignSeq (nch ns : Word) :
    (s.mixClear nch ns).assignSeq = s.assignSeq := rfl
@[simp] theorem mixClear_result (nch ns : Word) :
    (s.mixClear nch ns).result = s.result := rfl
@[simp] theorem mixClear_cfgCtrl (nch ns : Word) :
    (s.mixClear nch ns).cfgCtrl = s.cfgCtrl := rfl
@[simp] theorem mixClear_cfgRampT (nch ns : Word) :
    (s.mixClear nch ns).cfgRampT = s.cfgRampT := rfl
@[simp] theorem mixClear_cfgAmpScale (nch ns : Word) :
    (s.mixClear nch ns).cfgAmpScale = s.cfgAmpScale := rfl
@[simp] theorem mixClear_store (nch ns : Word) :
    (s.mixClear nch ns).store = s.store := rfl
@[simp] theorem mixClear_envParams (nch ns : Word) :
    (s.mixClear nch ns).envParams = s.envParams := rfl
@[simp] theorem mixClear_filtA (nch ns : Word) :
    (s.mixClear nch ns).filtA = s.filtA := rfl
@[simp] theorem mixClear_mixActive (nch ns : Word) :
    (s.mixClear nch ns).mixActive = s.mixActive := rfl
@[simp] theorem mixClear_decayRampActive (nch ns : Word) :
    (s.mixClear nch ns).decayRampActive = s.decayRampActive := rfl
@[simp] theorem mixClear_grCutoff (nch ns : Word) :
    (s.mixClear nch ns).grCutoff = s.grCutoff := rfl
@[simp] theorem mixClear_grMix (nch ns : Word) :
    (s.mixClear nch ns).grMix = s.grMix := rfl
@[simp] theorem mixClear_grDecayRamp (nch ns : Word) :
    (s.mixClear nch ns).grDecayRamp = s.grDecayRamp := rfl
@[simp] theorem mixClear_voices (nch ns : Word) :
    (s.mixClear nch ns).voices = s.voices := rfl
@[simp] theorem mixClear_evq (nch ns : Word) :
    (s.mixClear nch ns).evq = s.evq := rfl
@[simp] theorem mixClear_out (nch ns : Word) :
    (s.mixClear nch ns).out = clearOut s.build s.out nch.toNat ns.toNat := rfl
@[simp] theorem mixClear_phase (nch ns : Word) :
    (s.mixClear nch ns).phase = s.phase := rfl
@[simp] theorem mixClear_rendered (nch ns : Word) :
    (s.mixClear nch ns).rendered = s.rendered := rfl
@[simp] theorem mixClear_build (nch ns : Word) :
    (s.mixClear nch ns).build = s.build := rfl
@[simp] theorem mixClear_renderIn (nch ns : Word) :
    (s.mixClear nch ns).renderIn = s.renderIn := rfl
@[simp] theorem mixClear_controlIn (nch ns : Word) :
    (s.mixClear nch ns).controlIn = s.controlIn := rfl
@[simp] theorem mixClear_turns (nch ns : Word) :
    (s.mixClear nch ns).turns = s.turns := rfl
@[simp] theorem mixClear_port (nch ns : Word) : (s.mixClear nch ns).port = s.port := rfl
@[simp] theorem mixClear_voice (nch ns : Word) (k : Nat) :
    (s.mixClear nch ns).voice k = s.voice k := rfl
@[simp] theorem mixClear_slots (nch ns : Word) : (s.mixClear nch ns).slots = s.slots := rfl

/-! ### assignVoice -/

@[simp] theorem assignVoice_status (v : Nat) (id : Half) (f p tb : Word) :
    (s.assignVoice v id f p tb).status = s.status := rfl
@[simp] theorem assignVoice_faultCause (v : Nat) (id : Half) (f p tb : Word) :
    (s.assignVoice v id f p tb).faultCause = s.faultCause := rfl
@[simp] theorem assignVoice_faultW0 (v : Nat) (id : Half) (f p tb : Word) :
    (s.assignVoice v id f p tb).faultW0 = s.faultW0 := rfl
@[simp] theorem assignVoice_srate (v : Nat) (id : Half) (f p tb : Word) :
    (s.assignVoice v id f p tb).srate = s.srate := rfl
@[simp] theorem assignVoice_maxblk (v : Nat) (id : Half) (f p tb : Word) :
    (s.assignVoice v id f p tb).maxblk = s.maxblk := rfl
@[simp] theorem assignVoice_poly (v : Nat) (id : Half) (f p tb : Word) :
    (s.assignVoice v id f p tb).poly = s.poly := rfl
@[simp] theorem assignVoice_numCh (v : Nat) (id : Half) (f p tb : Word) :
    (s.assignVoice v id f p tb).numCh = s.numCh := rfl
@[simp] theorem assignVoice_numSamp (v : Nat) (id : Half) (f p tb : Word) :
    (s.assignVoice v id f p tb).numSamp = s.numSamp := rfl
@[simp] theorem assignVoice_assignSeq (v : Nat) (id : Half) (f p tb : Word) :
    (s.assignVoice v id f p tb).assignSeq = s.assignSeq + 1 := rfl
@[simp] theorem assignVoice_result (v : Nat) (id : Half) (f p tb : Word) :
    (s.assignVoice v id f p tb).result = s.result := rfl
@[simp] theorem assignVoice_cfgCtrl (v : Nat) (id : Half) (f p tb : Word) :
    (s.assignVoice v id f p tb).cfgCtrl = s.cfgCtrl := rfl
@[simp] theorem assignVoice_cfgRampT (v : Nat) (id : Half) (f p tb : Word) :
    (s.assignVoice v id f p tb).cfgRampT = s.cfgRampT := rfl
@[simp] theorem assignVoice_cfgAmpScale (v : Nat) (id : Half) (f p tb : Word) :
    (s.assignVoice v id f p tb).cfgAmpScale = s.cfgAmpScale := rfl
@[simp] theorem assignVoice_store (v : Nat) (id : Half) (f p tb : Word) :
    (s.assignVoice v id f p tb).store = s.store := rfl
@[simp] theorem assignVoice_envParams (v : Nat) (id : Half) (f p tb : Word) :
    (s.assignVoice v id f p tb).envParams = s.envParams := rfl
@[simp] theorem assignVoice_filtA (v : Nat) (id : Half) (f p tb : Word) :
    (s.assignVoice v id f p tb).filtA = s.filtA := rfl
@[simp] theorem assignVoice_mixActive (v : Nat) (id : Half) (f p tb : Word) :
    (s.assignVoice v id f p tb).mixActive = s.mixActive := rfl
@[simp] theorem assignVoice_decayRampActive (v : Nat) (id : Half) (f p tb : Word) :
    (s.assignVoice v id f p tb).decayRampActive = s.decayRampActive := rfl
@[simp] theorem assignVoice_grCutoff (v : Nat) (id : Half) (f p tb : Word) :
    (s.assignVoice v id f p tb).grCutoff = s.grCutoff := rfl
@[simp] theorem assignVoice_grMix (v : Nat) (id : Half) (f p tb : Word) :
    (s.assignVoice v id f p tb).grMix = s.grMix := rfl
@[simp] theorem assignVoice_grDecayRamp (v : Nat) (id : Half) (f p tb : Word) :
    (s.assignVoice v id f p tb).grDecayRamp = s.grDecayRamp := rfl
@[simp] theorem assignVoice_voices (v : Nat) (id : Half) (f p tb : Word) :
    (s.assignVoice v id f p tb).voices = s.voices.set v ((s.voice v).assign s.assignSeq (s.build.noteId id) f p tb) := rfl
@[simp] theorem assignVoice_evq (v : Nat) (id : Half) (f p tb : Word) :
    (s.assignVoice v id f p tb).evq = s.evq := rfl
@[simp] theorem assignVoice_out (v : Nat) (id : Half) (f p tb : Word) :
    (s.assignVoice v id f p tb).out = s.out := rfl
@[simp] theorem assignVoice_phase (v : Nat) (id : Half) (f p tb : Word) :
    (s.assignVoice v id f p tb).phase = s.phase := rfl
@[simp] theorem assignVoice_rendered (v : Nat) (id : Half) (f p tb : Word) :
    (s.assignVoice v id f p tb).rendered = s.rendered := rfl
@[simp] theorem assignVoice_build (v : Nat) (id : Half) (f p tb : Word) :
    (s.assignVoice v id f p tb).build = s.build := rfl
@[simp] theorem assignVoice_renderIn (v : Nat) (id : Half) (f p tb : Word) :
    (s.assignVoice v id f p tb).renderIn = s.renderIn := rfl
@[simp] theorem assignVoice_controlIn (v : Nat) (id : Half) (f p tb : Word) :
    (s.assignVoice v id f p tb).controlIn = s.controlIn := rfl
@[simp] theorem assignVoice_turns (v : Nat) (id : Half) (f p tb : Word) :
    (s.assignVoice v id f p tb).turns = s.turns := rfl
@[simp] theorem assignVoice_port (v : Nat) (id : Half) (f p tb : Word) : (s.assignVoice v id f p tb).port = s.port := rfl
@[simp] theorem assignVoice_slots (v : Nat) (id : Half) (f p tb : Word) : (s.assignVoice v id f p tb).slots = s.slots :=
  congrArg (fun n => (List.range n).filter fun w => w < s.poly.toNat) List.length_set

/-! ### refreshDerived -/

@[simp] theorem refreshDerived_status :
    s.refreshDerived.status = s.status := rfl
@[simp] theorem refreshDerived_faultCause :
    s.refreshDerived.faultCause = s.faultCause := rfl
@[simp] theorem refreshDerived_faultW0 :
    s.refreshDerived.faultW0 = s.faultW0 := rfl
@[simp] theorem refreshDerived_srate :
    s.refreshDerived.srate = s.srate := rfl
@[simp] theorem refreshDerived_maxblk :
    s.refreshDerived.maxblk = s.maxblk := rfl
@[simp] theorem refreshDerived_poly :
    s.refreshDerived.poly = s.poly := rfl
@[simp] theorem refreshDerived_numCh :
    s.refreshDerived.numCh = s.numCh := rfl
@[simp] theorem refreshDerived_numSamp :
    s.refreshDerived.numSamp = s.numSamp := rfl
@[simp] theorem refreshDerived_assignSeq :
    s.refreshDerived.assignSeq = s.assignSeq := rfl
@[simp] theorem refreshDerived_result :
    s.refreshDerived.result = s.result := rfl
@[simp] theorem refreshDerived_cfgCtrl :
    s.refreshDerived.cfgCtrl = s.cfgCtrl := rfl
@[simp] theorem refreshDerived_cfgRampT :
    s.refreshDerived.cfgRampT = s.cfgRampT := rfl
@[simp] theorem refreshDerived_cfgAmpScale :
    s.refreshDerived.cfgAmpScale = s.cfgAmpScale := rfl
@[simp] theorem refreshDerived_store :
    s.refreshDerived.store = s.store := rfl
@[simp] theorem refreshDerived_envParams :
    s.refreshDerived.envParams = s.envParams := rfl
@[simp] theorem refreshDerived_filtA :
    s.refreshDerived.filtA = filterCoef s.build s.grCutoff.cur s.srate := rfl
@[simp] theorem refreshDerived_mixActive :
    s.refreshDerived.mixActive = clamp31 s.grMix.cur := rfl
@[simp] theorem refreshDerived_decayRampActive :
    s.refreshDerived.decayRampActive = s.grDecayRamp.cur := rfl
@[simp] theorem refreshDerived_grCutoff :
    s.refreshDerived.grCutoff = s.grCutoff := rfl
@[simp] theorem refreshDerived_grMix :
    s.refreshDerived.grMix = s.grMix := rfl
@[simp] theorem refreshDerived_grDecayRamp :
    s.refreshDerived.grDecayRamp = s.grDecayRamp := rfl
@[simp] theorem refreshDerived_voices :
    s.refreshDerived.voices = s.voices := rfl
@[simp] theorem refreshDerived_evq :
    s.refreshDerived.evq = s.evq := rfl
@[simp] theorem refreshDerived_out :
    s.refreshDerived.out = s.out := rfl
@[simp] theorem refreshDerived_phase :
    s.refreshDerived.phase = s.phase := rfl
@[simp] theorem refreshDerived_rendered :
    s.refreshDerived.rendered = s.rendered := rfl
@[simp] theorem refreshDerived_build :
    s.refreshDerived.build = s.build := rfl
@[simp] theorem refreshDerived_renderIn :
    s.refreshDerived.renderIn = s.renderIn := rfl
@[simp] theorem refreshDerived_controlIn :
    s.refreshDerived.controlIn = s.controlIn := rfl
@[simp] theorem refreshDerived_turns :
    s.refreshDerived.turns = s.turns := rfl
@[simp] theorem refreshDerived_port : s.refreshDerived.port = s.port := rfl
@[simp] theorem refreshDerived_voice (k : Nat) :
    s.refreshDerived.voice k = s.voice k := rfl
@[simp] theorem refreshDerived_slots : s.refreshDerived.slots = s.slots := rfl

/-! ### advanceGlobals -/

@[simp] theorem advanceGlobals_status (ns : Word) :
    (s.advanceGlobals ns).status = s.status := rfl
@[simp] theorem advanceGlobals_faultCause (ns : Word) :
    (s.advanceGlobals ns).faultCause = s.faultCause := rfl
@[simp] theorem advanceGlobals_faultW0 (ns : Word) :
    (s.advanceGlobals ns).faultW0 = s.faultW0 := rfl
@[simp] theorem advanceGlobals_srate (ns : Word) :
    (s.advanceGlobals ns).srate = s.srate := rfl
@[simp] theorem advanceGlobals_maxblk (ns : Word) :
    (s.advanceGlobals ns).maxblk = s.maxblk := rfl
@[simp] theorem advanceGlobals_poly (ns : Word) :
    (s.advanceGlobals ns).poly = s.poly := rfl
@[simp] theorem advanceGlobals_numCh (ns : Word) :
    (s.advanceGlobals ns).numCh = s.numCh := rfl
@[simp] theorem advanceGlobals_numSamp (ns : Word) :
    (s.advanceGlobals ns).numSamp = s.numSamp := rfl
@[simp] theorem advanceGlobals_assignSeq (ns : Word) :
    (s.advanceGlobals ns).assignSeq = s.assignSeq := rfl
@[simp] theorem advanceGlobals_result (ns : Word) :
    (s.advanceGlobals ns).result = s.result := rfl
@[simp] theorem advanceGlobals_cfgCtrl (ns : Word) :
    (s.advanceGlobals ns).cfgCtrl = s.cfgCtrl := rfl
@[simp] theorem advanceGlobals_cfgRampT (ns : Word) :
    (s.advanceGlobals ns).cfgRampT = s.cfgRampT := rfl
@[simp] theorem advanceGlobals_cfgAmpScale (ns : Word) :
    (s.advanceGlobals ns).cfgAmpScale = s.cfgAmpScale := rfl
@[simp] theorem advanceGlobals_store (ns : Word) :
    (s.advanceGlobals ns).store = s.store := rfl
@[simp] theorem advanceGlobals_envParams (ns : Word) :
    (s.advanceGlobals ns).envParams = s.envParams := rfl
@[simp] theorem advanceGlobals_filtA (ns : Word) :
    (s.advanceGlobals ns).filtA = s.filtA := rfl
@[simp] theorem advanceGlobals_mixActive (ns : Word) :
    (s.advanceGlobals ns).mixActive = s.mixActive := rfl
@[simp] theorem advanceGlobals_decayRampActive (ns : Word) :
    (s.advanceGlobals ns).decayRampActive = s.decayRampActive := rfl
@[simp] theorem advanceGlobals_grCutoff (ns : Word) :
    (s.advanceGlobals ns).grCutoff = Ramp.ticks ns.toNat (s.grCutoff.setTarget s.store.cutoff) := rfl
@[simp] theorem advanceGlobals_grMix (ns : Word) :
    (s.advanceGlobals ns).grMix = Ramp.ticks ns.toNat (s.grMix.setTarget (clamp31 s.store.mix)) := rfl
@[simp] theorem advanceGlobals_grDecayRamp (ns : Word) :
    (s.advanceGlobals ns).grDecayRamp = Ramp.ticks ns.toNat (s.grDecayRamp.setTarget s.store.decayRamp) := rfl
@[simp] theorem advanceGlobals_voices (ns : Word) :
    (s.advanceGlobals ns).voices = s.voices := rfl
@[simp] theorem advanceGlobals_evq (ns : Word) :
    (s.advanceGlobals ns).evq = s.evq := rfl
@[simp] theorem advanceGlobals_out (ns : Word) :
    (s.advanceGlobals ns).out = s.out := rfl
@[simp] theorem advanceGlobals_phase (ns : Word) :
    (s.advanceGlobals ns).phase = s.phase := rfl
@[simp] theorem advanceGlobals_rendered (ns : Word) :
    (s.advanceGlobals ns).rendered = s.rendered := rfl
@[simp] theorem advanceGlobals_build (ns : Word) :
    (s.advanceGlobals ns).build = s.build := rfl
@[simp] theorem advanceGlobals_renderIn (ns : Word) :
    (s.advanceGlobals ns).renderIn = s.renderIn := rfl
@[simp] theorem advanceGlobals_controlIn (ns : Word) :
    (s.advanceGlobals ns).controlIn = s.controlIn := rfl
@[simp] theorem advanceGlobals_turns (ns : Word) :
    (s.advanceGlobals ns).turns = s.turns := rfl
@[simp] theorem advanceGlobals_port (ns : Word) : (s.advanceGlobals ns).port = s.port := rfl
@[simp] theorem advanceGlobals_voice (ns : Word) (k : Nat) :
    (s.advanceGlobals ns).voice k = s.voice k := rfl
@[simp] theorem advanceGlobals_slots (ns : Word) : (s.advanceGlobals ns).slots = s.slots := rfl

/-! ### endTurn -/

@[simp] theorem endTurn_status :
    s.endTurn.status = s.status := rfl
@[simp] theorem endTurn_faultCause :
    s.endTurn.faultCause = s.faultCause := rfl
@[simp] theorem endTurn_faultW0 :
    s.endTurn.faultW0 = s.faultW0 := rfl
@[simp] theorem endTurn_srate :
    s.endTurn.srate = s.srate := rfl
@[simp] theorem endTurn_maxblk :
    s.endTurn.maxblk = s.maxblk := rfl
@[simp] theorem endTurn_poly :
    s.endTurn.poly = s.poly := rfl
@[simp] theorem endTurn_numCh :
    s.endTurn.numCh = s.numCh := rfl
@[simp] theorem endTurn_numSamp :
    s.endTurn.numSamp = s.numSamp := rfl
@[simp] theorem endTurn_assignSeq :
    s.endTurn.assignSeq = s.assignSeq := rfl
@[simp] theorem endTurn_result :
    s.endTurn.result = s.result := rfl
@[simp] theorem endTurn_cfgCtrl :
    s.endTurn.cfgCtrl = s.cfgCtrl := rfl
@[simp] theorem endTurn_cfgRampT :
    s.endTurn.cfgRampT = s.cfgRampT := rfl
@[simp] theorem endTurn_cfgAmpScale :
    s.endTurn.cfgAmpScale = s.cfgAmpScale := rfl
@[simp] theorem endTurn_store :
    s.endTurn.store = s.store := rfl
@[simp] theorem endTurn_envParams :
    s.endTurn.envParams = s.envParams := rfl
@[simp] theorem endTurn_filtA :
    s.endTurn.filtA = s.filtA := rfl
@[simp] theorem endTurn_mixActive :
    s.endTurn.mixActive = s.mixActive := rfl
@[simp] theorem endTurn_decayRampActive :
    s.endTurn.decayRampActive = s.decayRampActive := rfl
@[simp] theorem endTurn_grCutoff :
    s.endTurn.grCutoff = s.grCutoff := rfl
@[simp] theorem endTurn_grMix :
    s.endTurn.grMix = s.grMix := rfl
@[simp] theorem endTurn_grDecayRamp :
    s.endTurn.grDecayRamp = s.grDecayRamp := rfl
@[simp] theorem endTurn_voices :
    s.endTurn.voices = s.voices := rfl
@[simp] theorem endTurn_evq :
    s.endTurn.evq = s.evq := rfl
@[simp] theorem endTurn_out :
    s.endTurn.out = s.out := rfl
@[simp] theorem endTurn_phase :
    s.endTurn.phase = s.phase := rfl
@[simp] theorem endTurn_rendered :
    s.endTurn.rendered = s.rendered := rfl
@[simp] theorem endTurn_build :
    s.endTurn.build = s.build := rfl
@[simp] theorem endTurn_renderIn :
    s.endTurn.renderIn = s.renderIn := rfl
@[simp] theorem endTurn_controlIn :
    s.endTurn.controlIn = s.controlIn := rfl
@[simp] theorem endTurn_turns :
    s.endTurn.turns = s.turns.tail := rfl
@[simp] theorem endTurn_voice (k : Nat) :
    s.endTurn.voice k = s.voice k := rfl
@[simp] theorem endTurn_slots : s.endTurn.slots = s.slots := rfl

/-! ### Voice slots -/

@[simp] theorem voice_setVoice (v w : Nat) (x : Voice) :
    (s.setVoice v x).voice w = if v = w ∧ w < s.voices.length then x else s.voice w := by
  simp only [State.voice, setVoice_voices, List.getElem?_set]
  by_cases h : v = w
  · subst h
    by_cases h' : v < s.voices.length <;> simp [h']
  · simp [h]

@[simp] theorem voice_updVoice (v w : Nat) (f : Voice → Voice) :
    (s.updVoice v f).voice w =
      if v = w ∧ w < s.voices.length then f (s.voice v) else s.voice w := by
  simp [State.updVoice]

@[simp] theorem voice_assignVoice (v w : Nat) (id : Half) (f p tb : Word) :
    (s.assignVoice v id f p tb).voice w =
      if v = w ∧ w < s.voices.length then (s.voice v).assign s.assignSeq (s.build.noteId id) f p tb
      else s.voice w :=
  voice_updVoice s v w fun x => x.assign s.assignSeq (s.build.noteId id) f p tb

/-- No operation on a slot builds or removes one. -/
@[simp] theorem setVoice_slots_length (v : Nat) (x : Voice) :
    (s.setVoice v x).voices.length = s.voices.length := by simp

@[simp] theorem updVoice_slots_length (v : Nat) (f : Voice → Voice) :
    (s.updVoice v f).voices.length = s.voices.length := by simp

/-- Setting a slot to what it holds changes nothing. -/
theorem setVoice_voice (v : Nat) : s.setVoice v (s.voice v) = s := by
  have h : s.voices.set v (s.voice v) = s.voices := by
    refine List.ext_getElem (by simp) fun i _ hi => ?_
    rw [List.getElem_set]
    split
    · next h => subst h; simp [State.voice, hi]
    · rfl
  cases s
  simpa [State.setVoice] using h

/-- A slot in use is below `POLY` and built. -/
theorem mem_slots (v : Nat) : v ∈ s.slots ↔ v < s.voices.length ∧ v < s.poly.toNat := by
  simp [State.slots]

end Sys2Proof.Machine
end

