-- ==== Sys2Proof/Laws/Ops.lean ====
section
/-! SUPPORT. What the shared operations can do, said once: a command on its port, the queue, the lookup
and the victim of the allocator, the reset. -/

namespace Sys2Proof.Machine

/-! ### Commands on their port (30_encoding.md R94, 60_exceptions.md R252, R253, R257) -/

/-- An executed command of the render port has its own effect. -/
theorem renderCommand_ok {i : Instr} {s t : State} (h : s.accepting)
    (hp : needsPrepared i = true → s.status.prepared = true) :
    renderCommand i s (.ok t) = .next t := by
  obtain ⟨hr, hh⟩ := h
  unfold renderCommand State.onRender
  rw [hr]
  cases hn : needsPrepared i
  · simp [hh, State.settle]
  · simp [hh, State.settle, hp hn]

/-- A command of the render port whose own check fails raises its fault. -/
theorem renderCommand_error {i : Instr} {s : State} {c : FaultCause} (h : s.accepting)
    (hp : needsPrepared i = true → s.status.prepared = true) :
    renderCommand i s (.error c) = .next (s.raise c (encode i).w0) := by
  obtain ⟨hr, hh⟩ := h
  unfold renderCommand State.onRender
  rw [hr]
  cases hn : needsPrepared i
  · simp [hh, State.settle]
  · simp [hh, State.settle, hp hn]

/-- On the control port a render-port command is discarded. -/
theorem renderCommand_control {i : Instr} {s : State} {e : Effect} (h : s.port = .control) :
    renderCommand i s e = .next s.setCtlIllegal := by
  unfold renderCommand
  rw [h]

/-- While the block is halted a render-port command is ignored. -/
theorem renderCommand_halted {i : Instr} {s : State} {e : Effect} (h : s.port = .render)
    (hh : s.status.halted = true) : renderCommand i s e = .next s := by
  unfold renderCommand State.onRender
  rw [h]
  simp [hh]

/-- A command that needs `PREPARED` raises `F_NOT_PREPARED` without it. -/
theorem renderCommand_notPrepared {i : Instr} {s : State} {e : Effect} (h : s.accepting)
    (hn : needsPrepared i = true) (hp : s.status.prepared = false) :
    renderCommand i s e = .next (s.raise .notPrepared (encode i).w0) := by
  obtain ⟨hr, hh⟩ := h
  unfold renderCommand State.onRender
  rw [hr]
  simp [hh, hn, hp]

/-- All that the render port's decode order can give: the state as it was, a fault, or the effect. -/
theorem onRender_cases (i : Instr) (s : State) (e : Effect) :
    (s.status.halted = true ∧ s.onRender i e = s) ∨
      (s.status.halted = false ∧ ∃ c, s.onRender i e = s.raise c (encode i).w0) ∨
      (s.status.halted = false ∧ (needsPrepared i = true → s.status.prepared = true) ∧
        e = .ok (s.onRender i e)) := by
  unfold State.onRender
  cases hh : s.status.halted
  · right
    cases hn : needsPrepared i <;> cases hp : s.status.prepared <;> cases e <;>
      simp [State.settle]
    all_goals exact ⟨_, rfl⟩
  · left
    exact ⟨rfl, rfl⟩

/-- All that a render-port command can do. -/
theorem renderCommand_cases {i : Instr} {s t : State} {e : Effect}
    (h : renderCommand i s e = .next t) :
    (s.port = .control ∧ t = s.setCtlIllegal) ∨
      (s.port = .render ∧ s.status.halted = true ∧ t = s) ∨
      (s.accepting ∧ ∃ c, t = s.raise c (encode i).w0) ∨
      (s.accepting ∧ (needsPrepared i = true → s.status.prepared = true) ∧ e = .ok t) := by
  unfold renderCommand at h
  cases hport : s.port
  · rw [hport] at h
    injection h with h
    rcases onRender_cases i s e with ⟨hh, he⟩ | ⟨hh, c, he⟩ | ⟨hh, hp, he⟩
    · exact .inr (.inl ⟨rfl, hh, by rw [← h, he]⟩)
    · exact .inr (.inr (.inl ⟨⟨hport, hh⟩, c, by rw [← h, he]⟩))
    · exact .inr (.inr (.inr ⟨⟨hport, hh⟩, hp, by rw [← h]; exact he⟩))
  · rw [hport] at h
    injection h with h
    exact .inl ⟨rfl, h.symm⟩

/-- A render-port command always answers a next state. -/
theorem renderCommand_next (i : Instr) (s : State) (e : Effect) :
    ∃ t, renderCommand i s e = .next t := by
  unfold renderCommand
  split <;> exact ⟨_, rfl⟩

/-- An event command always answers a next state. -/
theorem eventCommand_next (e : Event) (s : State) : ∃ t, eventCommand e s = .next t := by
  unfold eventCommand
  split <;> exact ⟨_, rfl⟩

/-- The codes a fault can leave in `FAULT_CAUSE` are 1 to 8 (R250). -/
theorem code_pos (c : FaultCause) : c.code ≠ 0 ∧ c.code.toNat ≤ 8 := by cases c <;> decide

/-! ### The event queue (20_memory.md R66) -/

/-- All that a push can do. -/
theorem evqPush_cases (s : State) (e : Event) :
    (s.evq.length < s.build.evqDepth ∧ s.evqPush e = { s with evq := s.evq ++ [e] }) ∨
      (s.build.evqDepth ≤ s.evq.length ∧ s.evqPush e = s.setEvqOvf) := by
  unfold State.evqPush
  split
  · next h => exact .inl ⟨h, rfl⟩
  · next h => exact .inr ⟨Nat.not_lt.1 h, rfl⟩

/-! ### The allocator (47_events_allocator.md R205, R206, R211) -/

/-- The slots in use are in rising order. -/
theorem slots_sorted (s : State) : s.slots.Pairwise (· < ·) :=
  List.pairwise_lt_range.filter _

/-- In a rising list, `find?` gives the least element with the property. -/
theorem find?_sorted {l : List Nat} (hl : l.Pairwise (· < ·)) {p : Nat → Bool} {v : Nat} :
    l.find? p = some v ↔ v ∈ l ∧ p v = true ∧ ∀ w ∈ l, w < v → p w = false := by
  induction l with
  | nil => simp
  | cons a l ih =>
    obtain ⟨ha, hl'⟩ := List.pairwise_cons.1 hl
    by_cases hp : p a
    · rw [List.find?_cons_of_pos hp]
      constructor
      · rintro ⟨rfl⟩
        refine ⟨by simp, hp, fun w hw hlt => ?_⟩
        rcases List.mem_cons.1 hw with rfl | hw
        · exact absurd hlt (Nat.lt_irrefl _)
        · exact absurd hlt (Nat.not_lt.2 (Nat.le_of_lt (ha w hw)))
      · rintro ⟨hv, -, hmin⟩
        rcases List.mem_cons.1 hv with rfl | hv
        · rfl
        · have := hmin a (by simp) (ha v hv)
          rw [hp] at this
          exact absurd this (by decide)
    · rw [List.find?_cons_of_neg hp, ih hl']
      have hp' : p a = false := by simpa using hp
      constructor
      · rintro ⟨hv, hpv, hmin⟩
        refine ⟨by simp [hv], hpv, fun w hw hlt => ?_⟩
        rcases List.mem_cons.1 hw with rfl | hw
        · exact hp'
        · exact hmin w hw hlt
      · rintro ⟨hv, hpv, hmin⟩
        rcases List.mem_cons.1 hv with rfl | hv
        · rw [hp'] at hpv
          exact absurd hpv (by decide)
        · exact ⟨hv, hpv, fun w hw => hmin w (by simp [hw])⟩

/-- `Find(id)` is the lowest slot in use that holds `id` (R205). -/
theorem find_eq_some (s : State) (id : Half) (v : Nat) :
    s.find id = some v ↔
      v < s.voices.length ∧ s.holds v id = true ∧
        ∀ w, w < v → w < s.voices.length → s.holds w id = false := by
  unfold State.find
  rw [find?_sorted (slots_sorted s)]
  simp only [mem_slots, State.holds]
  constructor
  · rintro ⟨⟨h1, h2⟩, h3, h4⟩
    refine ⟨h1, by simpa [h2] using h3, fun w hw hw' => ?_⟩
    by_cases hp : w < s.poly.toNat
    · simpa [hp] using h4 w ⟨hw', hp⟩ hw
    · simp [hp]
  · rintro ⟨h1, h2, h3⟩
    have hp : v < s.poly.toNat := by
      by_contra hn
      simp [hn] at h2
    refine ⟨⟨h1, hp⟩, by simpa [hp] using h2, fun w hw hlt => ?_⟩
    simpa [hw.2] using h3 w hlt hw.1

/-- `Find(id)` is none exactly when no slot in use holds `id` (R205). -/
theorem find_eq_none (s : State) (id : Half) :
    s.find id = none ↔ ∀ v, v < s.voices.length → s.holds v id = false := by
  unfold State.find
  rw [List.find?_eq_none]
  simp only [mem_slots, State.holds]
  constructor
  · intro h v hv
    by_cases hp : v < s.poly.toNat
    · simpa [hp] using h v ⟨hv, hp⟩
    · simp [hp]
  · rintro h v ⟨hv, hp⟩
    simpa [hp] using h v hv

/-- The lowest Free slot in use (R206 step 1). -/
theorem findFree_eq_some (s : State) (v : Nat) :
    s.findFree = some v ↔
      v < s.voices.length ∧ v < s.poly.toNat ∧ (s.voice v).vstate = .free ∧
        ∀ w, w < v → (s.voice w).vstate ≠ .free := by
  unfold State.findFree
  rw [find?_sorted (slots_sorted s)]
  simp only [mem_slots]
  constructor
  · rintro ⟨⟨h1, h2⟩, h3, h4⟩
    refine ⟨h1, h2, by simpa using h3, fun w hw => ?_⟩
    simpa using h4 w ⟨by omega, by omega⟩ hw
  · rintro ⟨h1, h2, h3, h4⟩
    exact ⟨⟨h1, h2⟩, by simpa using h3, fun w _ hlt => by simpa using h4 w hlt⟩

/-- No slot in use is Free. -/
theorem findFree_eq_none (s : State) :
    s.findFree = none ↔
      ∀ v, v < s.voices.length → v < s.poly.toNat → (s.voice v).vstate ≠ .free := by
  unfold State.findFree
  rw [List.find?_eq_none]
  simp only [mem_slots]
  constructor
  · intro h v hv hp; simpa using h v ⟨hv, hp⟩
  · rintro h v ⟨hv, hp⟩; simpa using h v hv hp

/-- `argMin` over a rising list whose elements are above `best`: the smallest key, ties to the
lowest. -/
theorem argMin_spec (key : Nat → Nat) (best : Nat) (l : List Nat)
    (hl : (best :: l).Pairwise (· < ·)) :
    argMin key best l ∈ best :: l ∧
      (∀ w ∈ best :: l, key (argMin key best l) ≤ key w) ∧
      ∀ w ∈ best :: l, w < argMin key best l → key (argMin key best l) < key w := by
  induction l generalizing best with
  | nil => simp [argMin]
  | cons a l ih =>
    obtain ⟨hb, hl'⟩ := List.pairwise_cons.1 hl
    obtain ⟨ha, hl''⟩ := List.pairwise_cons.1 hl'
    rw [argMin]
    split
    · next hk =>
      obtain ⟨h1, h2, h3⟩ := ih a hl'
      refine ⟨List.mem_cons_of_mem _ h1, fun w hw => ?_, fun w hw hlt => ?_⟩
      · rcases List.mem_cons.1 hw with rfl | hw
        · have := h2 a (by simp); omega
        · exact h2 w hw
      · rcases List.mem_cons.1 hw with rfl | hw
        · have := h2 a (by simp); omega
        · exact h3 w hw hlt
    · next hk =>
      have hp : (best :: l).Pairwise (· < ·) :=
        List.pairwise_cons.2 ⟨fun w hw => hb w (by simp [hw]), hl''⟩
      obtain ⟨h1, h2, h3⟩ := ih best hp
      refine ⟨?_, fun w hw => ?_, fun w hw hlt => ?_⟩
      · rcases List.mem_cons.1 h1 with h1 | h1
        · rw [h1]; simp
        · simp [h1]
      · rcases List.mem_cons.1 hw with rfl | hw
        · exact h2 w (by simp)
        · rcases List.mem_cons.1 hw with rfl | hw
          · have := h2 best (by simp); omega
          · exact h2 w (by simp [hw])
      · rcases List.mem_cons.1 hw with rfl | hw
        · exact h3 w (by simp) hlt
        · rcases List.mem_cons.1 hw with rfl | hw
          · rcases List.mem_cons.1 h1 with h1 | h1
            · have := hb w (by simp); omega
            · have := h3 best (by simp) (by have := hb _ (List.mem_cons_of_mem w h1); omega)
              omega
          · exact h3 w (by simp [hw]) hlt

/-- `Victim()` (R211): with a slot built and in use, the slot in use with the smallest key, ties to the
lowest. -/
theorem victim_spec (s : State) (hs : 0 < s.voices.length) (h : s.poly ≠ 0) :
    s.victim < s.voices.length ∧ s.victim < s.poly.toNat ∧
      (∀ w, w < s.voices.length → w < s.poly.toNat → s.stealKey s.victim ≤ s.stealKey w) ∧
      ∀ w, w < s.victim → s.stealKey s.victim < s.stealKey w := by
  have hpos : 0 < s.poly.toNat := by
    rcases Nat.eq_zero_or_pos s.poly.toNat with h0 | h0
    · exact absurd (BitVec.eq_of_toNat_eq h0) h
    · exact h0
  obtain ⟨l, hl⟩ : ∃ l, s.slots = 0 :: l := by
    have h0 : (0 : Nat) ∈ s.slots := (mem_slots s 0).2 ⟨hs, hpos⟩
    have hs := slots_sorted s
    cases hc : s.slots with
    | nil => rw [hc] at h0; simp at h0
    | cons a l =>
      rw [hc] at h0 hs
      rcases List.mem_cons.1 h0 with rfl | h0
      · exact ⟨l, rfl⟩
      · exact absurd ((List.pairwise_cons.1 hs).1 0 h0) (Nat.not_lt_zero _)
  have hv : s.victim = argMin s.stealKey 0 l := by
    rw [State.victim, hl, argMin]
    simp
  have hs := slots_sorted s
  rw [hl] at hs
  obtain ⟨h1, h2, h3⟩ := argMin_spec s.stealKey 0 l hs
  rw [← hv, ← hl, mem_slots] at h1
  refine ⟨h1.1, h1.2, fun w hw hw' => ?_, fun w hw => ?_⟩
  · rw [hv]
    exact h2 w (by rw [← hl, mem_slots]; exact ⟨hw, hw'⟩)
  · rw [hv] at hw ⊢
    refine h3 w ?_ hw
    rw [← hl, mem_slots]
    rw [← hv] at hw
    exact ⟨by omega, by omega⟩

end Sys2Proof.Machine
end

