-- ==== Sys2Proof/Laws/OutBuf.lean ====
section
/-! SUPPORT. The output buffer: what every operation on it keeps and changes (20_memory.md R62,
46_mixer.md R195, R196). -/

namespace Sys2Proof.Machine

variable {b : Config.Build}

/-! ### Keys -/

theorem outKey_lt {c n : Nat} (h : outExists b c n) :
    outKey b c n < b.maxCh * b.maxBlock := by
  obtain ⟨hc, hn⟩ := h
  calc outKey b c n < b.maxBlock * (c + 1) := by rw [outKey, Nat.mul_succ]; omega
    _ ≤ b.maxBlock * b.maxCh := Nat.mul_le_mul_left _ hc
    _ = b.maxCh * b.maxBlock := Nat.mul_comm _ _

theorem outKey_div {c n : Nat} (h : outExists b c n) : outKey b c n / b.maxBlock = c := by
  rw [outKey, Nat.mul_add_div (by have := h.2; omega), Nat.div_eq_of_lt h.2, Nat.add_zero]

theorem outKey_mod {c n : Nat} (h : outExists b c n) : outKey b c n % b.maxBlock = n := by
  rw [outKey, Nat.mul_add_mod, Nat.mod_eq_of_lt h.2]

theorem outKey_inj {c n c' n' : Nat} (h : outExists b c n) (h' : outExists b c' n')
    (e : outKey b c n = outKey b c' n') : c = c' ∧ n = n' :=
  ⟨by rw [← outKey_div h, ← outKey_div h', e], by rw [← outKey_mod h, ← outKey_mod h', e]⟩

/-! ### Words by key -/

/-- A key that no entry has reads as zero. -/
theorem bufRead_eq_zero {m : OutBuf} {k : Nat} (h : ∀ e ∈ m, e.1 ≠ k) : bufRead m k = 0 := by
  induction m with
  | nil => rfl
  | cons e m ih =>
    rw [bufRead, if_neg (h e (by simp))]
    exact ih fun e' he' => h e' (by simp [he'])

/-- A key below every key of the buffer reads as zero. -/
theorem bufRead_of_lt {m : OutBuf} {k : Nat} (h : ∀ e ∈ m, k < e.1) : bufRead m k = 0 :=
  bufRead_eq_zero fun e he => by have := h e he; omega

/-- The entries of a buffer after a write: those it had at other keys, and the one written. -/
theorem mem_bufWrite {m : OutBuf} {k : Nat} {w : Word} {e : Nat × Word} (h : e ∈ bufWrite m k w) :
    e ∈ m ∨ (e = (k, w) ∧ w ≠ 0) := by
  induction m with
  | nil =>
    unfold bufWrite at h
    split at h
    · simp at h
    · exact .inr ⟨by simpa using h, ‹_›⟩
  | cons a m ih =>
    unfold bufWrite at h
    split at h
    · split at h
      · exact .inl h
      · rcases List.mem_cons.1 h with h | h
        · exact .inr ⟨h, ‹_›⟩
        · exact .inl h
    · split at h
      · split at h
        · exact .inl (List.mem_cons_of_mem _ h)
        · rcases List.mem_cons.1 h with h | h
          · exact .inr ⟨h, ‹_›⟩
          · exact .inl (List.mem_cons_of_mem _ h)
      · rcases List.mem_cons.1 h with h | h
        · exact .inl (by simp [h])
        · rcases ih h with h | h
          · exact .inl (List.mem_cons_of_mem _ h)
          · exact .inr h

/-- A read after a write, on a buffer whose keys rise. -/
theorem bufRead_bufWrite {m : OutBuf} (hm : m.Pairwise fun a b => a.1 < b.1) (k j : Nat) (w : Word) :
    bufRead (bufWrite m k w) j = if j = k then w else bufRead m j := by
  induction m with
  | nil =>
    simp only [bufWrite]
    split
    · next h => simp [bufRead, h]
    · simp only [bufRead, eq_comm]
  | cons a m ih =>
    obtain ⟨ha, hm'⟩ := List.pairwise_cons.1 hm
    have hlow : ∀ i, i ≤ a.1 → bufRead m i = 0 := fun i hi =>
      bufRead_of_lt fun e he => by have := ha e he; omega
    simp only [bufWrite]
    split
    · next hk =>
      have hz : bufRead (a :: m) k = 0 := by
        rw [bufRead, if_neg (by omega)]
        exact hlow k (by omega)
      split
      · next hw =>
        split
        · next hj => rw [hj, hz, hw]
        · rfl
      · rw [bufRead]
        by_cases hj : j = k
        · rw [if_pos hj.symm, if_pos hj]
        · rw [if_neg (Ne.symm hj), if_neg hj]
    · split
      · next hk =>
        subst hk
        split
        · next hw =>
          by_cases hj : j = a.1
          · rw [if_pos hj, hj, hlow _ (Nat.le_refl _), hw]
          · rw [if_neg hj, bufRead, if_neg (Ne.symm hj)]
        · by_cases hj : j = a.1
          · rw [if_pos hj, bufRead, if_pos hj.symm]
          · rw [if_neg hj, bufRead, if_neg (Ne.symm hj), bufRead, if_neg (Ne.symm hj)]
      · next hk =>
        rw [bufRead, bufRead, ih hm']
        by_cases hj : a.1 = j
        · rw [if_pos hj, if_pos hj, if_neg (by omega)]
        · rw [if_neg hj, if_neg hj]

/-- A write keeps the canonical form, if its key is that of a word of the buffer. -/
theorem bufWrite_wf {m : OutBuf} (hm : OutBuf.wf b m) {k : Nat} (hk : k < b.maxCh * b.maxBlock)
    (w : Word) : OutBuf.wf b (bufWrite m k w) := by
  obtain ⟨hs, hb⟩ := hm
  refine ⟨?_, fun e he => ?_⟩
  · clear hb
    induction m with
    | nil => unfold bufWrite; split <;> simp
    | cons a m ih =>
      obtain ⟨ha, hm'⟩ := List.pairwise_cons.1 hs
      unfold bufWrite
      split
      · next hka =>
        split
        · exact hs
        · refine List.pairwise_cons.2 ⟨fun e he => ?_, hs⟩
          rcases List.mem_cons.1 he with rfl | he
          · exact hka
          · exact Nat.lt_trans hka (ha e he)
      · split
        · next hka =>
          split
          · exact hm'
          · exact List.pairwise_cons.2 ⟨fun e he => by rw [hka]; exact ha e he, hm'⟩
        · next hka =>
          refine List.pairwise_cons.2 ⟨fun e he => ?_, ih hm'⟩
          rcases mem_bufWrite he with h | ⟨rfl, -⟩
          · exact ha e h
          · show a.1 < k
            omega
  · rcases mem_bufWrite he with h | ⟨rfl, hw⟩
    · exact hb e h
    · exact ⟨hk, hw⟩

/-! ### `OUT[c][n]` -/

theorem writeOut_wf {m : OutBuf} (hm : OutBuf.wf b m) (c n : Nat) (w : Word) :
    OutBuf.wf b (writeOut b m c n w) := by
  unfold writeOut
  split
  · next h => exact bufWrite_wf hm (outKey_lt h) w
  · exact hm

/-- A read after a write: the word written, and every other word as before. -/
theorem readOut_writeOut {m : OutBuf} (hm : OutBuf.wf b m) (c n c' n' : Nat) (w : Word) :
    readOut b (writeOut b m c n w) c' n' =
      if c = c' ∧ n = n' ∧ outExists b c n then w else readOut b m c' n' := by
  unfold readOut writeOut
  by_cases h : outExists b c n
  · by_cases h' : outExists b c' n'
    · rw [if_pos h, if_pos h', if_pos h', bufRead_bufWrite hm.1]
      by_cases e : c = c' ∧ n = n'
      · obtain ⟨rfl, rfl⟩ := e
        simp [h]
      · have hk : outKey b c' n' ≠ outKey b c n := fun hk => e (by
          have := outKey_inj h' h hk
          exact ⟨this.1.symm, this.2.symm⟩)
        rw [if_neg hk, if_neg (fun h => e ⟨h.1, h.2.1⟩)]
    · rw [if_neg h', if_neg h', if_neg]
      rintro ⟨rfl, rfl, h''⟩
      exact h' h''
  · have hne : ¬(c = c' ∧ n = n' ∧ outExists b c n) := fun e => h e.2.2
    simp only [if_neg h, if_neg hne]

theorem mixAdd_wf {m : OutBuf} (hm : OutBuf.wf b m) (c n : Nat) (y : Int) :
    OutBuf.wf b (mixAdd b m c n y) :=
  writeOut_wf hm c n _

/-- `MixAdd` (R195): the word is the wrapped sum, every other word as before. -/
theorem readOut_mixAdd {m : OutBuf} (hm : OutBuf.wf b m) (c n c' n' : Nat) (y : Int) :
    readOut b (mixAdd b m c n y) c' n' =
      if c = c' ∧ n = n' ∧ outExists b c n then wordOfInt ((readOut b m c' n').toInt + y)
      else readOut b m c' n' := by
  rw [mixAdd, readOut_writeOut hm]
  split
  · next h => obtain ⟨rfl, rfl, -⟩ := h; rfl
  · rfl

/-- `MixAdd` on a list of channels with no repeats. -/
theorem mixAddList_spec (n : Nat) (y : Int) (cs : List Nat) (hcs : cs.Nodup) (m : OutBuf)
    (hm : OutBuf.wf b m) :
    OutBuf.wf b (cs.foldl (fun m c => mixAdd b m c n y) m) ∧
      ∀ c' n', readOut b (cs.foldl (fun m c => mixAdd b m c n y) m) c' n' =
        if c' ∈ cs ∧ n' = n ∧ outExists b c' n then wordOfInt ((readOut b m c' n').toInt + y)
        else readOut b m c' n' := by
  induction cs generalizing m with
  | nil => exact ⟨hm, by simp⟩
  | cons c cs ih =>
    obtain ⟨hc, hcs'⟩ := List.nodup_cons.1 hcs
    obtain ⟨hw, hr⟩ := ih hcs' (mixAdd b m c n y) (mixAdd_wf hm c n y)
    refine ⟨hw, fun c' n' => ?_⟩
    rw [List.foldl_cons, hr, readOut_mixAdd hm]
    by_cases e : c = c'
    · subst e
      by_cases hn : n = n'
      · subst hn
        simp [hc]
      · simp [hc, hn, Ne.symm hn]
    · simp [e, Ne.symm e]

theorem mixAddAll_wf {m : OutBuf} (hm : OutBuf.wf b m) (nch n : Nat) (y : Int) :
    OutBuf.wf b (mixAddAll b m nch n y) :=
  (mixAddList_spec n y _ (List.nodup_range.filter _) m hm).1

/-- `MixAdd` on every channel below `nch` (R186, R197): the words of sample `n` gain `y`, every other
word is as before. -/
theorem readOut_mixAddAll {m : OutBuf} (hm : OutBuf.wf b m) (nch n c' n' : Nat) (y : Int) :
    readOut b (mixAddAll b m nch n y) c' n' =
      if c' < nch ∧ n' = n ∧ outExists b c' n then wordOfInt ((readOut b m c' n').toInt + y)
      else readOut b m c' n' := by
  rw [mixAddAll, (mixAddList_spec n y _ (List.nodup_range.filter _) m hm).2]
  have : (c' ∈ (List.range b.maxCh).filter (fun c => decide (c < nch)) ∧ n' = n ∧
      outExists b c' n) ↔ (c' < nch ∧ n' = n ∧ outExists b c' n) := by
    simp only [List.mem_filter, List.mem_range, decide_eq_true_eq]
    constructor
    · rintro ⟨⟨-, h⟩, h'⟩; exact ⟨h, h'⟩
    · rintro ⟨h, h', h''⟩; exact ⟨⟨h''.1, h⟩, h', h''⟩
  simp only [this]

/-! ### Clearing -/

theorem clearOut_wf {m : OutBuf} (hm : OutBuf.wf b m) (nch ns : Nat) :
    OutBuf.wf b (clearOut b m nch ns) :=
  ⟨hm.1.filter _, fun e he => hm.2 e (List.mem_of_mem_filter he)⟩

theorem bufRead_filter (p : Nat → Bool) (m : OutBuf) (k : Nat) :
    bufRead (m.filter fun e => p e.1) k = if p k then bufRead m k else 0 := by
  induction m with
  | nil => simp [bufRead]
  | cons a m ih =>
    by_cases ha : p a.1
    · rw [List.filter_cons_of_pos (by simpa using ha), bufRead, bufRead, ih]
      by_cases hk : a.1 = k
      · subst hk; simp [ha]
      · simp [hk]
    · rw [List.filter_cons_of_neg (by simpa using ha), ih, bufRead]
      by_cases hk : a.1 = k
      · subst hk; simp [ha]
      · simp [hk]

/-- `MIX.CLEAR` (R196): the words of the new geometry are zero, every other word is as before. -/
theorem readOut_clearOut (m : OutBuf) (nch ns c n : Nat) :
    readOut b (clearOut b m nch ns) c n = if c < nch ∧ n < ns then 0 else readOut b m c n := by
  unfold readOut
  by_cases h : outExists b c n
  · rw [if_pos h, if_pos h, clearOut,
      bufRead_filter fun k => !(k / b.maxBlock < nch && k % b.maxBlock < ns),
      outKey_div h, outKey_mod h]
    by_cases h' : c < nch ∧ n < ns
    · simp [h'.1, h'.2]
    · rw [if_neg h', if_pos]
      simp only [Bool.not_eq_true', Bool.and_eq_false_iff, decide_eq_false_iff_not]
      tauto
  · rw [if_neg h, if_neg h]
    split <;> rfl

end Sys2Proof.Machine
end

