-- ==== Sys2Proof/Laws/PerInstr.lean ====
section
/-! SUPPORT. Every command's first word lies in its own row of the opcode map, one lemma per command
(30_encoding.md R91, R93), and in no other row. -/

namespace Sys2Proof.Laws

open Sys2Proof.Machine

/-- The first word a command is encoded to selects a row of the opcode map (R91: `W0 & mask = match`),
and that row alone. -/
def Fits.Statement (i : Instr) : Prop :=
  ∃ row ∈ opcodeRows, (encode i).w0 &&& row.2 = row.1 ∧
    ∀ other ∈ opcodeRows, (encode i).w0 &&& other.2 = other.1 → other = row

/-! ### The formats of R91 -/

theorem packW0_maskZ (op : Octet) : packW0 op 0 0 &&& 0xFFFFFFFF#32 = packW0 op 0 0 :=
  by rw [show (0xFFFFFFFF#32 : Word) = BitVec.allOnes 32 from by decide, BitVec.and_allOnes]

theorem packW0_maskS (op v : Octet) : packW0 op v 0 &&& 0xFF00FFFF#32 = packW0 op 0 0 := by
  apply BitVec.eq_of_getLsbD_eq
  intro i hi
  simp only [packW0, BitVec.getLsbD_and, BitVec.getLsbD_append]
  interval_cases i <;> simp

theorem packW0_maskA (op : Octet) (a : Half) : packW0 op 0 a &&& 0xFFFF0000#32 = packW0 op 0 0 := by
  apply BitVec.eq_of_getLsbD_eq
  intro i hi
  simp only [packW0, BitVec.getLsbD_and, BitVec.getLsbD_append]
  interval_cases i <;> simp

theorem packW0_maskSA (op v : Octet) (a : Half) :
    packW0 op v a &&& 0xFF000000#32 = packW0 op 0 0 := by
  apply BitVec.eq_of_getLsbD_eq
  intro i hi
  simp only [packW0, BitVec.getLsbD_and, BitVec.getLsbD_append]
  interval_cases i <;> simp

/-- The opcode of a word that selects a row is the row's (R90, R91: every mask keeps it). -/
theorem opcode_of_row {w : Word} {r : Word × Word} (hr : r ∈ opcodeRows) (h : w &&& r.2 = r.1) :
    r.1.toNat / 2 ^ 24 = w.toNat / 2 ^ 24 := by
  have hm : (opcodeRows.all fun x => x.2.toNat / 2 ^ 24 == 2 ^ 8 - 1) = true := by decide +kernel
  have hm' := List.all_eq_true.1 hm r hr
  have hw := w.isLt
  rw [← h, BitVec.toNat_and, ← Nat.shiftRight_eq_div_pow, Nat.shiftRight_and_distrib,
    Nat.shiftRight_eq_div_pow, Nat.shiftRight_eq_div_pow, eq_of_beq hm',
    Nat.and_two_pow_sub_one_eq_mod]
  omega

/-- A word selects at most one row: the rows' opcodes differ (R93). -/
theorem opcodeRows_unique {w : Word} {r q : Word × Word} (hr : r ∈ opcodeRows) (hq : q ∈ opcodeRows)
    (h : w &&& r.2 = r.1) (h' : w &&& q.2 = q.1) : q = r := by
  have hd : (opcodeRows.map fun x => x.1.toNat / 2 ^ 24).Nodup := by decide +kernel
  exact List.inj_on_of_nodup_map hd hq hr ((opcode_of_row hq h').trans (opcode_of_row hr h).symm)

/-- A row that the first word selects is the only one. -/
theorem Fits.of_row {i : Instr} {op : Octet} {mask : Word}
    (hr : (packW0 op 0 0, mask) ∈ opcodeRows) (h : (encode i).w0 &&& mask = packW0 op 0 0) :
    Fits.Statement i :=
  ⟨_, hr, h, fun _ hq h' => opcodeRows_unique hr hq h h'⟩

/-! ### The commands -/

theorem Fits.nop :
    Fits.Statement (.nop) :=
  Fits.of_row (by decide) (packW0_maskZ 0x00)
theorem Fits.prepare (fs mb poly : Word) :
    Fits.Statement (.prepare fs mb poly) :=
  Fits.of_row (by decide) (packW0_maskZ 0x01)
theorem Fits.render (nch ns : Word) :
    Fits.Statement (.render nch ns) :=
  Fits.of_row (by decide) (packW0_maskZ 0x02)
theorem Fits.wrcfg (i : Half) (x : Word) :
    Fits.Statement (.wrcfg i x) :=
  Fits.of_row (by decide) (packW0_maskA 0x03 _)
theorem Fits.rdreg (sel : Octet) (reg : Half) :
    Fits.Statement (.rdreg sel reg) :=
  Fits.of_row (by decide) (packW0_maskSA 0x04 _ _)
theorem Fits.setglobal (i : Half) (x : Word) :
    Fits.Statement (.setglobal i x) :=
  Fits.of_row (by decide) (packW0_maskA 0x10 _)
theorem Fits.evNoteon (id : Half) (f p tb : Word) :
    Fits.Statement (.evNoteon id f p tb) :=
  Fits.of_row (by decide) (packW0_maskA 0x20 _)
theorem Fits.evNoteoff (id : Half) (a b c : Word) :
    Fits.Statement (.evNoteoff id a b c) :=
  Fits.of_row (by decide) (packW0_maskA 0x21 _)
theorem Fits.evPressure (id : Half) (x b c : Word) :
    Fits.Statement (.evPressure id x b c) :=
  Fits.of_row (by decide) (packW0_maskA 0x22 _)
theorem Fits.evPitch (id : Half) (f b c : Word) :
    Fits.Statement (.evPitch id f b c) :=
  Fits.of_row (by decide) (packW0_maskA 0x23 _)
theorem Fits.evTimbre (id : Half) (x b c : Word) :
    Fits.Statement (.evTimbre id x b c) :=
  Fits.of_row (by decide) (packW0_maskA 0x24 _)
theorem Fits.wtRead (t : Octet) (i : Half) :
    Fits.Statement (.wtRead t i) :=
  Fits.of_row (by decide) (packW0_maskSA 0x30 _ _)
theorem Fits.oscSetfreq (v : Octet) (o : Half) (f fs : Word) :
    Fits.Statement (.oscSetfreq v o f fs) :=
  Fits.of_row (by decide) (packW0_maskSA 0x40 _ _)
theorem Fits.oscNext (v : Octet) (o : Half) :
    Fits.Statement (.oscNext v o) :=
  Fits.of_row (by decide) (packW0_maskSA 0x41 _ _)
theorem Fits.oscReset (v : Octet) (o : Half) :
    Fits.Statement (.oscReset v o) :=
  Fits.of_row (by decide) (packW0_maskSA 0x42 _ _)
theorem Fits.envNoteon (v : Octet) :
    Fits.Statement (.envNoteon v) :=
  Fits.of_row (by decide) (packW0_maskS 0x50 _)
theorem Fits.envNoteoff (v : Octet) :
    Fits.Statement (.envNoteoff v) :=
  Fits.of_row (by decide) (packW0_maskS 0x51 _)
theorem Fits.envNext (v : Octet) :
    Fits.Statement (.envNext v) :=
  Fits.of_row (by decide) (packW0_maskS 0x52 _)
theorem Fits.envIsactive (v : Octet) :
    Fits.Statement (.envIsactive v) :=
  Fits.of_row (by decide) (packW0_maskS 0x53 _)
theorem Fits.envLoadp :
    Fits.Statement (.envLoadp) :=
  Fits.of_row (by decide) (packW0_maskZ 0x54)
theorem Fits.rmpSettarget (sel : Octet) (r : Half) (x : Word) :
    Fits.Statement (.rmpSettarget sel r x) :=
  Fits.of_row (by decide) (packW0_maskSA 0x60 _ _)
theorem Fits.rmpReset (sel : Octet) (r : Half) (fs time : Word) :
    Fits.Statement (.rmpReset sel r fs time) :=
  Fits.of_row (by decide) (packW0_maskSA 0x61 _ _)
theorem Fits.rmpNext (sel : Octet) (r : Half) :
    Fits.Statement (.rmpNext sel r) :=
  Fits.of_row (by decide) (packW0_maskSA 0x62 _ _)
theorem Fits.rmpGetcur (sel : Octet) (r : Half) :
    Fits.Statement (.rmpGetcur sel r) :=
  Fits.of_row (by decide) (packW0_maskSA 0x63 _ _)
theorem Fits.fltCoef (cutoff fs : Word) :
    Fits.Statement (.fltCoef cutoff fs) :=
  Fits.of_row (by decide) (packW0_maskZ 0x70)
theorem Fits.fltNext (v : Octet) (x : Word) :
    Fits.Statement (.fltNext v x) :=
  Fits.of_row (by decide) (packW0_maskS 0x71 _)
theorem Fits.fltClear (v : Octet) :
    Fits.Statement (.fltClear v) :=
  Fits.of_row (by decide) (packW0_maskS 0x72 _)
theorem Fits.vAssign (v : Octet) (id : Half) (f p tb : Word) :
    Fits.Statement (.vAssign v id f p tb) :=
  Fits.of_row (by decide) (packW0_maskSA 0x80 _ _)
theorem Fits.vPressure (v : Octet) (x : Word) :
    Fits.Statement (.vPressure v x) :=
  Fits.of_row (by decide) (packW0_maskS 0x81 _)
theorem Fits.vPitch (v : Octet) (f : Word) :
    Fits.Statement (.vPitch v f) :=
  Fits.of_row (by decide) (packW0_maskS 0x82 _)
theorem Fits.vTimbre (v : Octet) (x : Word) :
    Fits.Statement (.vTimbre v x) :=
  Fits.of_row (by decide) (packW0_maskS 0x83 _)
theorem Fits.vRelease (v : Octet) :
    Fits.Statement (.vRelease v) :=
  Fits.of_row (by decide) (packW0_maskS 0x84 _)
theorem Fits.vRender (v : Octet) (start ns : Word) :
    Fits.Statement (.vRender v start ns) :=
  Fits.of_row (by decide) (packW0_maskS 0x85 _)
theorem Fits.mixClear (nch ns : Word) :
    Fits.Statement (.mixClear nch ns) :=
  Fits.of_row (by decide) (packW0_maskZ 0x90)
theorem Fits.mixAcc (i : Half) (x : Word) :
    Fits.Statement (.mixAcc i x) :=
  Fits.of_row (by decide) (packW0_maskA 0x91 _)
theorem Fits.mixRead (c : Octet) (i : Half) :
    Fits.Statement (.mixRead c i) :=
  Fits.of_row (by decide) (packW0_maskSA 0x92 _ _)
theorem Fits.mixReadsat (c : Octet) (i : Half) :
    Fits.Statement (.mixReadsat c i) :=
  Fits.of_row (by decide) (packW0_maskSA 0x93 _ _)

end Sys2Proof.Laws
end

