-- ==== Sys2Proof/Laws/Run.lean ====
section
/-! SUPPORT. What a step executes and what is observed of a run, said once (70_reset_and_hazards.md R283). -/

namespace Sys2Proof.Machine

/-! ### What a step executes -/

/-- At a control turn the step executes what the control port presents. -/
theorem executes_control {s : State} {ts : List Turn} (h : s.turns = .control :: ts) :
    s.executes = s.controlIn.head?.bind decode := by
  simp [State.executes, State.nextCommand, State.portIn, State.port, h]

/-- At a render turn outside a `RENDER` the step executes what the render port presents. -/
theorem executes_render {s : State} {ts : List Turn} (h : s.turns = .render :: ts)
    (hp : s.phase = .idle) : s.executes = s.renderIn.head?.bind decode := by
  simp [State.executes, State.nextCommand, State.portIn, State.port, h, hp]

/-- Inside a `RENDER` a render turn executes no command. -/
theorem executes_rendering {s : State} {ts : List Turn} (h : s.turns = .render :: ts)
    (hp : s.phase ≠ .idle) : s.executes = none := by
  cases e : s.phase with
  | idle => exact absurd e hp
  | body ns => simp [State.executes, h, e]
  | finish ns => simp [State.executes, h, e]

/-- A control turn plays, whatever its port presents. -/
theorem playsNext_control {s : State} {ts : List Turn} (h : s.turns = .control :: ts) :
    s.playsNext = true := by
  simp [State.playsNext, State.port, h]

/-- Inside a `RENDER` a render turn plays, whatever waits on the render port. -/
theorem playsNext_rendering {s : State} {ts : List Turn} (h : s.turns = .render :: ts)
    (hp : s.phase ≠ .idle) : s.playsNext = true := by
  simp [State.playsNext, executes_rendering h hp]

/-! ### Deliveries -/

/-- The end step of a `RENDER` delivers the block it leaves. -/
theorem delivery_finish {s : State} {ns : Word} {ts : List Turn} (h : s.turns = .render :: ts)
    (hp : s.phase = .finish ns) (t : State) : s.delivery t = [t.block] := by
  simp [State.delivery, State.atRenderEnd, h, hp]

/-- Outside a `RENDER` no step delivers a block. -/
theorem delivery_idle {s : State} (hp : s.phase = .idle) (t : State) : s.delivery t = [] := by
  have : s.atRenderEnd = false := by
    unfold State.atRenderEnd
    rw [hp]
    split <;> first | rfl | contradiction
  simp [State.delivery, this]

/-- A control step delivers no response. -/
theorem response_control {s : State} {ts : List Turn} (h : s.turns = .control :: ts) (t : State) :
    s.response t = [] := by
  simp [State.response, State.port, h]

/-! ### Observations -/

@[simp] theorem observe_zero (s : State) : observe 0 s = ⟨[], [], s, s.faultLine⟩ := rfl

/-- One more step is observed before the rest. -/
theorem observe_succ {s t : State} (h : step s = .next t) (k : Nat) :
    observe (k + 1) s = { observe k t with
      blocks := s.delivery t ++ (observe k t).blocks
      responses := s.response t ++ (observe k t).responses } := by
  simp only [observe, h]

/-! ### Reading after an end step -/

@[simp] theorem finishStep_rendered (s : State) (ns : Word) : (s.finishStep ns).rendered = true := rfl
@[simp] theorem finishStep_phase (s : State) (ns : Word) : (s.finishStep ns).phase = .idle := rfl

end Sys2Proof.Machine
end

