-- ==== Sys2Proof/Laws/Sine.lean ====
section
/-! SUPPORT. The sine table (40_wavetable.md R123): the nearest integer is one integer, a legal table has
magnitude at most `SINE_AMP`, and the listing of R123 is the table of the formula. For the last, a walk over the
listing carries sin and cos of 2πk/256 as integers scaled by 10^14, with a bound on their error. -/

namespace Sys2Proof.Config

theorem Nearest.unique {v w : Int} {x : ℝ} (hv : Nearest v x) (hw : Nearest w x) : v = w := by
  obtain ⟨hv, hv'⟩ := hv
  obtain ⟨hw, hw'⟩ := hw
  have key : ∀ {a b : Int}, Nearest a x → Nearest b x → a < b → False := by
    intro a b ⟨ha, ha'⟩ ⟨hb, hb'⟩ hab
    have hab' : (a : ℝ) + 1 ≤ b := by exact_mod_cast hab
    have h1 := abs_le.1 ha
    have h2 := abs_le.1 hb
    have ea : x = a + 1 / 2 := by linarith
    have eb : (b : ℝ) = a + 1 := by linarith
    have h3 := ha' (by rw [ea, abs_of_neg] <;> linarith)
    have h4 := hb' (by rw [ea, eb, abs_of_pos] <;> linarith)
    rw [ea] at h3 h4
    rw [eb] at h4
    rcases le_or_gt 0 a with h | h
    · have : (0 : ℝ) ≤ a := by exact_mod_cast h
      rw [abs_of_nonneg (by linarith), abs_of_nonneg this] at h3
      linarith
    · have : (a : ℝ) + 1 ≤ 0 := by exact_mod_cast h
      rw [abs_of_nonpos this, abs_of_nonpos (by linarith)] at h4
      linarith
  rcases lt_trichotomy v w with h | h | h
  · exact (key ⟨hv, hv'⟩ ⟨hw, hw'⟩ h).elim
  · exact h
  · exact (key ⟨hw, hw'⟩ ⟨hv, hv'⟩ h).elim

/-- The integer nearest to A · y, where y is a sine, has magnitude at most A. -/
theorem Nearest.natAbs_le {v : Int} {a : Nat} {y : ℝ} (h : Nearest v (a * y)) (hy : |y| ≤ 1) :
    v.natAbs ≤ a := by
  have h1 := abs_le.1 h.1
  have h2 : |(a : ℝ) * y| ≤ a := by
    rw [abs_mul, Nat.abs_cast]
    exact mul_le_of_le_one_right (Nat.cast_nonneg a) hy
  have h2 := abs_le.1 h2
  have h3 : (v : ℝ) < (a : Int) + 1 := by push_cast; linarith
  have h4 : -((a : Int) : ℝ) - 1 < v := by push_cast; linarith
  have h3 : v < (a : Int) + 1 := by exact_mod_cast h3
  have h4 : -(a : Int) - 1 < v := by exact_mod_cast h4
  omega

/-- Every sample of a legal sine table has magnitude at most `SINE_AMP`. -/
theorem Build.Legal.sine_le {b : Build} (hb : b.Legal) (k : Nat) : (b.sine.getD k 0).natAbs ≤ b.sineAmp := by
  by_cases hk : k < 2 ^ b.tableLog2
  · exact (hb.sine.2 k hk).natAbs_le (Real.abs_sin_le_one _)
  · rw [List.getD_eq_default _ _ (hb.sine.1 ▸ Nat.not_lt.1 hk)]
    exact Nat.zero_le _

/-! ### The angle 2π/256 -/

/-- Bounds of a cosine from bounds of the cosine of the double angle. -/
theorem cos_half {x y L U l u : ℝ} (hxy : y = 2 * x) (hx : 0 ≤ Real.cos x)
    (h : L ≤ Real.cos y ∧ Real.cos y ≤ U) (hu : 0 ≤ u) (h1 : 2 * l ^ 2 - 1 ≤ L) (h2 : U ≤ 2 * u ^ 2 - 1) :
    l ≤ Real.cos x ∧ Real.cos x ≤ u := by
  rw [hxy, Real.cos_two_mul] at h
  exact ⟨le_of_sq_le_sq (by linarith) hx, le_of_sq_le_sq (by linarith) hu⟩

theorem cos_pi_div_nonneg {d : ℝ} (hd : 2 ≤ d) : 0 ≤ Real.cos (Real.pi / d) := by
  have hp := Real.pi_pos
  refine Real.cos_nonneg_of_neg_pi_div_two_le_of_le ?_ ?_
  · have : 0 ≤ Real.pi / d := by positivity
    linarith
  · exact div_le_div_of_nonneg_left hp.le (by norm_num) hd

/-- cos(π/128) and sin(π/128), scaled by 10^14, by halving the angle from π/2. -/
theorem cos_sin_angle :
    |(99969881869620 : ℝ) - 10 ^ 14 * Real.cos (Real.pi / 128)| ≤ 1 ∧
    |(2454122852291 : ℝ) - 10 ^ 14 * Real.sin (Real.pi / 128)| ≤ 1 := by
  have h2 : (0 : ℝ) ≤ Real.cos (Real.pi / 2) ∧ Real.cos (Real.pi / 2) ≤ 0 := by simp
  have h4 := cos_half (x := Real.pi / 4)
    (l := 7071067811865475244006 / 10 ^ 22) (u := 7071067811865475244010 / 10 ^ 22) (by ring)
    (cos_pi_div_nonneg (by norm_num)) h2 (by norm_num) (by norm_num) (by norm_num)
  have h8 := cos_half (x := Real.pi / 8)
    (l := 9238795325112867561279 / 10 ^ 22) (u := 9238795325112867561283 / 10 ^ 22) (by ring)
    (cos_pi_div_nonneg (by norm_num)) h4 (by norm_num) (by norm_num) (by norm_num)
  have h16 := cos_half (x := Real.pi / 16)
    (l := 9807852804032304491259 / 10 ^ 22) (u := 9807852804032304491263 / 10 ^ 22) (by ring)
    (cos_pi_div_nonneg (by norm_num)) h8 (by norm_num) (by norm_num) (by norm_num)
  have h32 := cos_half (x := Real.pi / 32)
    (l := 9951847266721968862446 / 10 ^ 22) (u := 9951847266721968862450 / 10 ^ 22) (by ring)
    (cos_pi_div_nonneg (by norm_num)) h16 (by norm_num) (by norm_num) (by norm_num)
  have h64 := cos_half (x := Real.pi / 64)
    (l := 9987954562051723927145 / 10 ^ 22) (u := 9987954562051723927149 / 10 ^ 22) (by ring)
    (cos_pi_div_nonneg (by norm_num)) h32 (by norm_num) (by norm_num) (by norm_num)
  have h128 := cos_half (x := Real.pi / 128)
    (l := 9996988186962042201155 / 10 ^ 22) (u := 9996988186962042201159 / 10 ^ 22) (by ring)
    (cos_pi_div_nonneg (by norm_num)) h64 (by norm_num) (by norm_num) (by norm_num)
  have hs0 : 0 ≤ Real.sin (Real.pi / 128) :=
    Real.sin_nonneg_of_nonneg_of_le_pi (by positivity) (div_le_self Real.pi_pos.le (by norm_num))
  have hs := Real.sin_sq (Real.pi / 128)
  have hc : Real.cos (Real.pi / 64) = 2 * Real.cos (Real.pi / 128) ^ 2 - 1 := by
    rw [← Real.cos_two_mul]
    ring_nf
  have h1 : 24541228522912 / 10 ^ 15 ≤ Real.sin (Real.pi / 128) := le_of_sq_le_sq (by
    have := h64.2
    norm_num at this ⊢
    linarith) hs0
  have h2 : Real.sin (Real.pi / 128) ≤ 24541228522913 / 10 ^ 15 := le_of_sq_le_sq (by
    have := h64.1
    norm_num at this ⊢
    linarith) (by norm_num)
  obtain ⟨h3, h4⟩ := h128
  norm_num at h1 h2 h3 h4
  constructor <;> rw [abs_le] <;> constructor <;> linarith

/-! ### The walk -/

/-- From sin and cos of an angle to those of the angle 2π/256 above it, scaled by 10^14. -/
def turn (p : Int × Int) : Int × Int :=
  ((p.1 * 99969881869620 + p.2 * 2454122852291) / 10 ^ 14,
    (p.2 * 99969881869620 - p.1 * 2454122852291) / 10 ^ 14)

/-- Every value of a list lies within 0.4999 of the sine the walk carries, times 32767. -/
def walk : List Int → Int × Int → Bool
  | [], _ => true
  | v :: vs, p => decide ((v * 10 ^ 14 - 32767 * p.1).natAbs ≤ 49990000000000) && walk vs (turn p)

/-- `p` is sin and cos of `x` scaled by 10^14, up to `e`. -/
def Close (p : Int × Int) (x e : ℝ) : Prop :=
  |p.1 - 10 ^ 14 * Real.sin x| ≤ e ∧ |p.2 - 10 ^ 14 * Real.cos x| ≤ e

/-- One narrowed sum of two products: the error grows by 1/32 and 3. -/
theorem abs_floor_sub_le {a b e y z : ℝ} {p q c d : Int} {c' d' : ℝ} (hy : |y| ≤ 1) (hz : |z| ≤ 1)
    (hp : |p - 10 ^ 14 * y| ≤ e) (hq : |q - 10 ^ 14 * z| ≤ e) (hc : |c - 10 ^ 14 * c'| ≤ 1)
    (hd : |d - 10 ^ 14 * d'| ≤ 1) (hc1 : |(c : ℝ)| ≤ a) (hd1 : |(d : ℝ)| ≤ b) :
    |(((p * c + q * d) / 10 ^ 14 : Int) : ℝ) - 10 ^ 14 * (y * c' + z * d')| ≤ e * (a + b) / 10 ^ 14 + 3 := by
  have he : 0 ≤ e := (abs_nonneg _).trans hp
  have h1 : |((p : ℝ) - 10 ^ 14 * y) * c| ≤ e * a := by
    rw [abs_mul]; exact mul_le_mul hp hc1 (abs_nonneg _) he
  have h2 : |((q : ℝ) - 10 ^ 14 * z) * d| ≤ e * b := by
    rw [abs_mul]; exact mul_le_mul hq hd1 (abs_nonneg _) he
  have h3 : |y * ((c : ℝ) - 10 ^ 14 * c')| ≤ 1 := by
    rw [abs_mul]; exact mul_le_one₀ hy (abs_nonneg _) hc
  have h4 : |z * ((d : ℝ) - 10 ^ 14 * d')| ≤ 1 := by
    rw [abs_mul]; exact mul_le_one₀ hz (abs_nonneg _) hd
  have hr := Int.emod_add_mul_ediv (p * c + q * d) (10 ^ 14)
  have hr0 := Int.emod_nonneg (p * c + q * d) (b := 10 ^ 14) (by norm_num)
  have hr1 := Int.emod_lt_of_pos (p * c + q * d) (b := 10 ^ 14) (by norm_num)
  generalize (p * c + q * d) / 10 ^ 14 = k at *
  generalize (p * c + q * d) % 10 ^ 14 = r at *
  have hr : (r : ℝ) + 10 ^ 14 * k = p * c + q * d := by exact_mod_cast hr
  have hr0 : (0 : ℝ) ≤ r := by exact_mod_cast hr0
  have hr1 : (r : ℝ) < 10 ^ 14 := by exact_mod_cast hr1
  rw [abs_le] at h1 h2 h3 h4 ⊢
  constructor <;> linarith

theorem Close.turn {p : Int × Int} {x e : ℝ} (h : Close p x e) :
    Close (turn p) (x + Real.pi / 128) (e * 33 / 32 + 3) := by
  obtain ⟨hc, hs⟩ := cos_sin_angle
  have he : 0 ≤ e := (abs_nonneg _).trans h.1
  have h1 := abs_floor_sub_le (c := 99969881869620) (d := 2454122852291) (a := 10 ^ 14) (b := 10 ^ 14 / 32)
    (Real.abs_sin_le_one x) (Real.abs_cos_le_one x) h.1 h.2 (by exact_mod_cast hc) (by exact_mod_cast hs)
    (by norm_num) (by norm_num)
  have h2 := abs_floor_sub_le (c := 99969881869620) (d := -2454122852291) (d' := -Real.sin (Real.pi / 128))
    (a := 10 ^ 14) (b := 10 ^ 14 / 32)
    (Real.abs_cos_le_one x) (Real.abs_sin_le_one x) h.2 h.1 (by exact_mod_cast hc) (by
      rw [← abs_neg] at hs
      push_cast
      convert hs using 2
      ring) (by norm_num) (by norm_num)
  refine ⟨?_, ?_⟩
  · rw [Real.sin_add]
    exact h1.trans (by linarith)
  · have e1 : Real.cos (x + Real.pi / 128) =
        Real.cos x * Real.cos (Real.pi / 128) + Real.sin x * -Real.sin (Real.pi / 128) := by
      rw [Real.cos_add]
      ring
    have e2 : (Config.turn p).2 = (p.2 * 99969881869620 + p.1 * -2454122852291) / 10 ^ 14 := by
      rw [Config.turn, mul_neg, ← sub_eq_add_neg]
    rw [e1, e2]
    exact h2.trans (by linarith)

/-- A walk that started exactly `j` turns ago, with the error it has since, finds the nearest integers. -/
theorem walk_sound {vs : List Int} {p : Int × Int} {j : Nat} (hj : j + vs.length ≤ 256)
    (hp : Close p (Real.pi / 128 * j) (96 * (33 / 32) ^ j - 96)) (hw : walk vs p = true) :
    ∀ k < vs.length, |((vs.getD k 0 : Int) : ℝ) - 32767 * Real.sin (Real.pi / 128 * (j + k : Nat))| < 1 / 2 := by
  induction vs generalizing p j with
  | nil => intro k hk; cases hk
  | cons v vs ih =>
    simp only [walk, Bool.and_eq_true, decide_eq_true_eq] at hw
    simp only [List.length_cons] at hj
    intro k hk
    cases k with
    | zero =>
      have h1 : |(v : ℝ) * 10 ^ 14 - 32767 * p.1| ≤ 49990000000000 := by
        have : |v * 10 ^ 14 - 32767 * p.1| ≤ 49990000000000 := by
          rw [← Int.natCast_natAbs]
          exact_mod_cast hw.1
        exact_mod_cast this
      have h2 := hp.1
      have h3 : 96 * ((33 : ℝ) / 32) ^ j - 96 ≤ 300000 := by
        have : ((33 : ℝ) / 32) ^ j ≤ (33 / 32) ^ 256 := pow_le_pow_right₀ (by norm_num) (by omega)
        have h4 : ((33 : ℝ) / 32) ^ 256 ≤ 2700 := by norm_num
        linarith
      simp only [List.getD_cons_zero, Nat.add_zero]
      rw [abs_le] at h1 h2
      rw [abs_lt]
      constructor <;> linarith
    | succ k =>
      have hp' := hp.turn
      have e1 : (96 * ((33 : ℝ) / 32) ^ j - 96) * 33 / 32 + 3 = 96 * (33 / 32) ^ (j + 1) - 96 := by ring
      have e2 : Real.pi / 128 * j + Real.pi / 128 = Real.pi / 128 * (j + 1 : Nat) := by push_cast; ring
      rw [e1, e2] at hp'
      have := ih (by omega) hp' hw.2 k (by simpa using hk)
      rw [List.getD_cons_succ]
      rwa [show j + (k + 1) = j + 1 + k by omega]

/-- The listing of R123 is the table of its formula for N = 256 and S = 32767. -/
theorem built_sine (k : Nat) (hk : k < 256) :
    Nearest (built.sine.getD k 0) (32767 * Real.sin (2 * Real.pi * k / 256)) := by
  have h0 : Close (0, 10 ^ 14) (Real.pi / 128 * (0 : Nat)) (96 * (33 / 32) ^ 0 - 96) := by
    norm_num [Close]
  have hl : built.sine.length = 256 := by decide +kernel
  have h := walk_sound (by rw [hl]) h0 (by decide +kernel) k (by rw [hl]; exact hk)
  rw [Nat.zero_add, show Real.pi / 128 * (k : ℝ) = 2 * Real.pi * k / 256 by ring] at h
  exact ⟨h.le, fun e => absurd e h.ne⟩

/-- The default build is legal (R5). -/
theorem built_legal : built.Legal :=
  ⟨by decide, by decide, by decide, by decide, by decide, by decide, by decide, by decide, by decide,
    by decide, by decide +kernel, fun k hk => by
      have := built_sine k hk
      rwa [← Nat.cast_ofNat (R := ℝ) (n := 32767), ← Nat.cast_ofNat (R := ℝ) (n := 256)] at this⟩

/-- For N = 256 and S = 32767 every legal build has the listing of R123. -/
theorem Build.Legal.sine_eq_built {b : Build} (hb : b.Legal) (hN : b.tableLog2 = 8)
    (hS : b.sineAmp = 32767) (k : Nat) : b.sine.getD k 0 = built.sine.getD k 0 := by
  obtain ⟨hl, h⟩ := hb.sine
  obtain ⟨hl', h'⟩ := built_legal.sine
  rw [hN] at hl h
  rw [hS] at h
  by_cases hk : k < 2 ^ 8
  · exact (h k hk).unique (h' k hk)
  · rw [List.getD_eq_default _ _ (by omega), List.getD_eq_default _ _ (by rw [hl']; exact Nat.not_lt.1 hk)]

end Sys2Proof.Config
end

