-- ==== Sys2Proof/Laws/Units.lean ====
section
/-! SUPPORT. What the operations of the units keep and compute: operands, ramps (43_ramp.md R157, R158,
R160), envelopes (42_envelope.md R143, R146), the filter (44_filter.md R172), the oscillator
(41_oscillator.md R132, R134). -/

namespace Sys2Proof.Machine

/-! ### Operands -/

theorem toNat_ofNat_of_lt {n w : Nat} (h : n < 2 ^ w) : (BitVec.ofNat w n).toNat = n := by
  rw [BitVec.toNat_ofNat, Nat.mod_eq_of_lt h]

theorem clamp15_toNat (w : Word) : (clamp15 w).toNat = min (w.toNat % 2 ^ 16) one15 :=
  toNat_ofNat_of_lt (by simp only [one15]; omega)

theorem clamp15_le (w : Word) : (clamp15 w).toNat ≤ one15 := by
  rw [clamp15_toNat]
  exact Nat.min_le_right _ _

theorem clamp31_toNat (w : Word) : (clamp31 w).toNat = min w.toNat one31 :=
  toNat_ofNat_of_lt (by simp only [one31]; omega)

theorem sat32u_toNat (n : Nat) : (sat32u n).toNat = min n (2 ^ 32 - 1) :=
  toNat_ofNat_of_lt (by omega)

theorem clamp15Target_toNat (w : Word) :
    (clamp15Target w).toNat = 2 ^ 16 * min (w.toNat % 2 ^ 16) one15 := by
  rw [clamp15Target, clamp15_toNat]
  exact toNat_ofNat_of_lt (by simp only [one15]; omega)

theorem samplesOf_toNat (time fs : Word) :
    (samplesOf time fs).toNat = min (time.toNat * fs.toNat / 2 ^ 16) (2 ^ 32 - 1) :=
  sat32u_toNat _

theorem wordOfInt_toInt {k : Int} (h : -2 ^ 31 ≤ k) (h' : k < 2 ^ 31) : (wordOfInt k).toInt = k := by
  rw [wordOfInt, BitVec.toInt_ofInt, Int.bmod_def]
  omega

theorem ofInt_toNat {k : Int} (h : 0 ≤ k) (h' : k < 2 ^ 32) :
    ((BitVec.ofInt 32 k).toNat : Int) = k := by
  rw [BitVec.toNat_ofInt]
  omega

/-- A clamped fraction scaled by 2^16 stays in 32 bits: a level from the top of a UQ1.31 value is at most
1.0. -/
theorem top16_le {w : Word} (h : w.toNat ≤ one31) : top16 w ≤ one15 := by
  simp only [top16, one15, one31] at *
  omega

/-! ### The floor of a scaled difference -/

/-- The floor of `f · d / m` with 0 ≤ f ≤ m lies between 0 and `d`: what keeps every interpolation of
the block inside its ends (00_scope.md R9). -/
theorem floor_scaled_between {f d m : Int} (hm : 0 < m) (h0 : 0 ≤ f) (h1 : f ≤ m) :
    between 0 (f * d / m) d := by
  rcases Int.le_total 0 d with hd | hd
  · left
    have h2 : f * d ≤ m * d := Int.mul_le_mul_of_nonneg_right h1 hd
    have h3 : 0 ≤ f * d := Int.mul_nonneg h0 hd
    exact ⟨Int.ediv_nonneg h3 (Int.le_of_lt hm), by
      calc f * d / m ≤ m * d / m := Int.ediv_le_ediv hm h2
        _ = d := Int.mul_ediv_cancel_left _ (by omega)⟩
  · right
    have h2 : m * d ≤ f * d := Int.mul_le_mul_of_nonpos_right h1 hd
    have h3 : f * d ≤ 0 := Int.mul_nonpos_of_nonneg_of_nonpos h0 hd
    refine ⟨?_, ?_⟩
    · calc d = m * d / m := (Int.mul_ediv_cancel_left _ (by omega)).symm
        _ ≤ f * d / m := Int.ediv_le_ediv hm h2
    · calc f * d / m ≤ 0 / m := Int.ediv_le_ediv hm h3
        _ = 0 := Int.zero_ediv _

/-! ### Ramps -/

theorem rampCoef_bounds (steps : Word) :
    0 < (rampCoef steps).toNat ∧ (rampCoef steps).toNat ≤ one31 := by
  unfold rampCoef
  split
  · rw [toNat_ofNat_of_lt (by decide)]
    decide
  · have hd : one31 / steps.toNat ≤ one31 := Nat.div_le_self _ _
    rw [toNat_ofNat_of_lt (by simp only [one31] at *; omega)]
    simp only [one31] at *
    omega

theorem Ramp.reset_ok (x : Ramp) (fs time : Word) (mode : RampMode) : (x.reset fs time mode).Ok where
  coefPos := (rampCoef_bounds _).1
  coefLe := (rampCoef_bounds _).2
  heading := fun _ h => absurd rfl h

/-- `STEP` is the truncated quotient, exactly (R157). -/
theorem rampStep_toInt {cur x steps : Word} (h : steps ≠ 0) :
    (rampStep cur x steps).toInt = ((x.toNat : Int) - cur.toNat).tdiv steps.toNat := by
  have hs : 0 < steps.toNat := by
    rcases Nat.eq_zero_or_pos steps.toNat with h0 | h0
    · exact absurd (BitVec.eq_of_toNat_eq h0) h
    · exact h0
  have hx := x.isLt
  have hc := cur.isLt
  have hq : (((x.toNat : Int) - cur.toNat).tdiv steps.toNat).natAbs ≤
      ((x.toNat : Int) - cur.toNat).natAbs := Int.natAbs_tdiv_le_natAbs _ _
  rw [rampStep, BitVec.toInt_ofInt, Int.bmod_def]
  omega

theorem tdiv_mul_between (d : Int) {n : Nat} (hn : 0 < n) :
    (0 ≤ d.tdiv n ∧ d.tdiv n * n ≤ d) ∨ (d.tdiv n ≤ 0 ∧ d ≤ d.tdiv n * n) := by
  have hn' : (0 : Int) < n := by exact_mod_cast hn
  rcases Int.le_total 0 d with hd | hd
  · left
    refine ⟨Int.tdiv_nonneg hd (Int.le_of_lt hn'), ?_⟩
    rw [Int.tdiv_eq_ediv_of_nonneg hd]
    exact Int.ediv_mul_le _ (by omega)
  · right
    have e : d.tdiv n = -((-d).tdiv n) := by rw [Int.neg_tdiv, Int.neg_neg]
    rw [e, Int.tdiv_eq_ediv_of_nonneg (by omega)]
    have h1 : 0 ≤ -d / (n : Int) := Int.ediv_nonneg (by omega) (by omega)
    have h2 : -d / (n : Int) * n ≤ -d := Int.ediv_mul_le _ (by omega)
    refine ⟨by omega, ?_⟩
    rw [Int.neg_mul]
    omega

theorem Ramp.setTarget_ok {q : Ramp} (h : q.Ok) (x : Word) : (q.setTarget x).Ok := by
  unfold Ramp.setTarget
  split
  · exact ⟨h.coefPos, h.coefLe, fun _ hc => absurd rfl hc⟩
  · next hs =>
    cases hm : q.mode
    · show Ramp.Ok (if _ then _ else _)
      split
      · exact h
      · refine ⟨h.coefPos, h.coefLe, fun _ _ => ?_⟩
        have hs' : 0 < q.steps.toNat := by
          rcases Nat.eq_zero_or_pos q.steps.toNat with h0 | h0
          · exact absurd (BitVec.eq_of_toNat_eq h0) hs
          · exact h0
        show (0 ≤ (rampStep q.cur x q.steps).toInt ∧ _) ∨ _
        rw [rampStep_toInt hs]
        rcases tdiv_mul_between ((x.toNat : Int) - q.cur.toNat) hs' with ⟨h1, h2⟩ | ⟨h1, h2⟩
        · exact .inl ⟨h1, by show (q.cur.toNat : Int) + _ * (q.steps.toNat : Int) ≤ x.toNat; omega⟩
        · exact .inr ⟨h1, by show (x.toNat : Int) ≤ q.cur.toNat + _ * (q.steps.toNat : Int); omega⟩
    · exact ⟨h.coefPos, h.coefLe, fun hc => absurd hc (by simp)⟩

/-- The count of a linear ramp that has more than its last tick to go. -/
theorem cnt_pred {c : Word} (h0 : c ≠ 0) (h1 : c ≠ 1) :
    2 ≤ c.toNat ∧ (c - 1).toNat = c.toNat - 1 := by
  have hc := c.isLt
  have h0' : c.toNat ≠ 0 := fun h => h0 (BitVec.eq_of_toNat_eq h)
  have h1' : c.toNat ≠ 1 := fun h => h1 (BitVec.eq_of_toNat_eq (by simpa using h))
  refine ⟨by omega, ?_⟩
  rw [BitVec.toNat_sub]
  show (2 ^ 32 - 1 + c.toNat) % 2 ^ 32 = _
  omega

/-- What a linear tick of a well-kept ramp does (R158): the sum does not wrap, and the value stays on its
way to the target. -/
theorem Ramp.nextLinear_spec {q : Ramp} (h : q.Ok) (hm : q.mode = .linear) :
    q.nextLinear.Ok ∧ between q.cur.toNat q.nextLinear.cur.toNat q.tgt.toNat := by
  unfold Ramp.nextLinear
  split
  · refine ⟨h, ?_⟩
    unfold between
    omega
  · next h0 =>
    split
    · refine ⟨⟨h.coefPos, h.coefLe, fun _ hc => absurd rfl hc⟩, ?_⟩
      show between q.cur.toNat q.tgt.toNat q.tgt.toNat
      unfold between
      omega
    · next h1 =>
      obtain ⟨hc2, hcp⟩ := cnt_pred h0 h1
      have ht := q.tgt.isLt
      have hcur := q.cur.isLt
      have hprev : (q.cnt.toNat : Int) = ((q.cnt - 1).toNat : Int) + 1 := by omega
      have hh := h.heading hm h0
      rw [hprev, Int.mul_add, Int.mul_one] at hh
      have hp : (0 : Int) ≤ ((q.cnt - 1).toNat : Int) := by omega
      have hval : ((BitVec.ofInt 32 ((q.cur.toNat : Int) + q.step.toInt)).toNat : Int) =
          q.cur.toNat + q.step.toInt := by
        apply ofInt_toNat
        · rcases hh with ⟨hh1, -⟩ | ⟨hh1, hh2⟩
          · omega
          · have : q.step.toInt * ((q.cnt - 1).toNat : Int) ≤ 0 :=
              Int.mul_nonpos_of_nonpos_of_nonneg hh1 hp
            omega
        · rcases hh with ⟨hh1, hh2⟩ | ⟨hh1, -⟩
          · have : 0 ≤ q.step.toInt * ((q.cnt - 1).toNat : Int) := Int.mul_nonneg hh1 hp
            omega
          · omega
      refine ⟨⟨h.coefPos, h.coefLe, fun _ _ => ?_⟩, ?_⟩
      · show (_ ∧ ((BitVec.ofInt 32 ((q.cur.toNat : Int) + q.step.toInt)).toNat : Int) +
          q.step.toInt * ((q.cnt - 1).toNat : Int) ≤ q.tgt.toNat) ∨
          (_ ∧ (q.tgt.toNat : Int) ≤ ((BitVec.ofInt 32 ((q.cur.toNat : Int) +
          q.step.toInt)).toNat : Int) + q.step.toInt * ((q.cnt - 1).toNat : Int))
        rw [hval]
        rcases hh with ⟨hh1, hh2⟩ | ⟨hh1, hh2⟩
        · exact .inl ⟨hh1, by omega⟩
        · exact .inr ⟨hh1, by omega⟩
      · show between q.cur.toNat
          ((BitVec.ofInt 32 ((q.cur.toNat : Int) + q.step.toInt)).toNat : Int) q.tgt.toNat
        rw [hval]
        rcases hh with ⟨hh1, hh2⟩ | ⟨hh1, hh2⟩
        · have : 0 ≤ q.step.toInt * ((q.cnt - 1).toNat : Int) := Int.mul_nonneg hh1 hp
          exact .inl ⟨by omega, by omega⟩
        · have : q.step.toInt * ((q.cnt - 1).toNat : Int) ≤ 0 :=
            Int.mul_nonpos_of_nonpos_of_nonneg hh1 hp
          exact .inr ⟨by omega, by omega⟩

/-- The move of an exponential tick: at least 1 and at most the distance (R158). -/
theorem expMove_bounds {k c : Nat} (hk : 0 < k) (hc : 0 < c) (hc' : c ≤ one31) :
    1 ≤ ((one31 - 1) + k * c) / one31 ∧ ((one31 - 1) + k * c) / one31 ≤ k := by
  have h1 : 1 ≤ k * c := Nat.mul_pos hk hc
  have h2 : k * c ≤ k * one31 := Nat.mul_le_mul_left k hc'
  simp only [one31] at *
  omega

/-- What an exponential tick of a well-kept ramp does (R158): away from the target the value moves by at
least 1 towards it, and never past it. -/
theorem Ramp.nextExponential_spec {q : Ramp} (h : q.Ok) (hm : q.mode = .exponential) :
    q.nextExponential.Ok ∧ between q.cur.toNat q.nextExponential.cur.toNat q.tgt.toNat ∧
      (q.cur ≠ q.tgt → q.nextExponential.cur ≠ q.cur) := by
  have ht := q.tgt.isLt
  have hcur := q.cur.isLt
  have hmode : ∀ w : Word, ({ q with cur := w } : Ramp).Ok := fun w =>
    ⟨h.coefPos, h.coefLe, fun hc => absurd hc (by show q.mode ≠ _; rw [hm]; decide)⟩
  unfold Ramp.nextExponential
  simp only
  split
  · next hd =>
    refine ⟨h, by unfold between; omega, fun hne => absurd (BitVec.eq_of_toNat_eq ?_) hne⟩
    omega
  · next hd =>
    have hk : 0 < ((q.tgt.toNat : Int) - q.cur.toNat).natAbs := by omega
    obtain ⟨hm1, hm2⟩ := expMove_bounds hk h.coefPos h.coefLe
    generalize ((one31 - 1) + ((q.tgt.toNat : Int) - q.cur.toNat).natAbs * q.coef.toNat) / one31
      = m at hm1 hm2 ⊢
    split
    · have hv : ((BitVec.ofInt 32 ((q.cur.toNat : Int) + m)).toNat : Int) = q.cur.toNat + m :=
        ofInt_toNat (by omega) (by omega)
      refine ⟨hmode _, ?_, fun _ he => ?_⟩
      · show between q.cur.toNat ((BitVec.ofInt 32 ((q.cur.toNat : Int) + m)).toNat : Int)
          q.tgt.toNat
        rw [hv]
        unfold between
        omega
      · have he' : ((BitVec.ofInt 32 ((q.cur.toNat : Int) + m)).toNat : Int) = q.cur.toNat :=
          congrArg (fun w : Word => (w.toNat : Int)) he
        omega
    · have hv : ((BitVec.ofInt 32 ((q.cur.toNat : Int) - m)).toNat : Int) = q.cur.toNat - m :=
        ofInt_toNat (by omega) (by omega)
      refine ⟨hmode _, ?_, fun _ he => ?_⟩
      · show between q.cur.toNat ((BitVec.ofInt 32 ((q.cur.toNat : Int) - m)).toNat : Int)
          q.tgt.toNat
        rw [hv]
        unfold between
        omega
      · have he' : ((BitVec.ofInt 32 ((q.cur.toNat : Int) - m)).toNat : Int) = q.cur.toNat :=
          congrArg (fun w : Word => (w.toNat : Int)) he
        omega

theorem Ramp.next_ok {q : Ramp} (h : q.Ok) : q.next.Ok := by
  unfold Ramp.next
  cases hm : q.mode
  · exact (Ramp.nextLinear_spec h hm).1
  · exact (Ramp.nextExponential_spec h hm).1

theorem Ramp.ticks_ok {q : Ramp} (h : q.Ok) (n : Nat) : (Ramp.ticks n q).Ok := by
  induction n generalizing q with
  | zero => exact h
  | succ n ih => exact ih (Ramp.next_ok h)

/-! ### Envelopes -/

theorem Env.noteOn_ok {e : Env} (h : e.Ok) : e.noteOn.Ok :=
  ⟨Nat.zero_le _, h.relStart, (fun hc => nomatch (hc : EnvStage.attack = .idle)), by
    show (0 : Nat) < _; decide⟩

theorem Env.noteOff_ok {e : Env} (h : e.Ok) : e.noteOff.Ok :=
  ⟨h.level, h.level, (fun hc => nomatch (hc : EnvStage.release = .idle)), by
    show (0 : Nat) < _; decide⟩

/-- A share of a level is a level. -/
theorem share_le {a n m : Nat} (h : n < m) : a * n / m ≤ a :=
  Nat.div_le_of_le_mul (by rw [Nat.mul_comm m a]; exact Nat.mul_le_mul_left a (Nat.le_of_lt h))

/-- A count that has not reached a length can still be counted (R143). -/
theorem count_toNat {p n : Word} (h : ¬ n.toNat ≤ p.toNat + 1) :
    (BitVec.ofNat 32 (p.toNat + 1)).toNat = p.toNat + 1 ∧ p.toNat + 1 < 2 ^ 32 - 1 := by
  have := n.isLt
  exact ⟨toNat_ofNat_of_lt (by omega), by omega⟩

/-- A level written from a number that is a level. -/
theorem level_toNat {n : Nat} (h : n ≤ one31) : (BitVec.ofNat 32 n).toNat = n :=
  toNat_ofNat_of_lt (Nat.lt_of_le_of_lt h (by decide))

/-- Attack (R143, R146): levels stay levels, and do not fall. -/
theorem Env.nextAttack_spec {p : EnvParams} {e : Env} (h : e.Ok) (hs : e.stage = .attack) :
    (e.nextAttack p).Ok ∧ e.level.toNat ≤ (e.nextAttack p).level.toNat := by
  unfold Env.nextAttack
  simp only
  split
  · have hv : (BitVec.ofNat 32 one31).toNat = one31 := level_toNat (Nat.le_refl _)
    exact ⟨⟨Nat.le_of_eq hv, h.relStart, (fun hc => nomatch hc), by show (0 : Nat) < _; decide⟩, by
      show _ ≤ (BitVec.ofNat 32 one31).toNat
      rw [hv]
      exact h.level⟩
  · next hn =>
    have hle := Nat.max_le.2 ⟨h.level, share_le (a := one31) (Nat.not_le.1 hn)⟩
    have hv := level_toNat hle
    obtain ⟨hc, hc'⟩ := count_toNat hn
    exact ⟨⟨hv.trans_le hle, h.relStart, (fun hi => nomatch hs.symm.trans hi), hc.trans_lt hc'⟩,
      hv.symm ▸ Nat.le_max_left _ _⟩

/-- Decay (R143, R146): levels stay levels, and do not rise. -/
theorem Env.nextDecay_spec {p : EnvParams} {e : Env} (h : e.Ok) (hs : e.stage = .decay) :
    (e.nextDecay p).Ok ∧ (e.nextDecay p).level.toNat ≤ e.level.toNat := by
  unfold Env.nextDecay
  simp only
  split
  · have hle : min e.level.toNat p.sus.toNat ≤ e.level.toNat := Nat.min_le_left _ _
    have hv := level_toNat (Nat.le_trans hle h.level)
    exact ⟨⟨hv.trans_le (Nat.le_trans hle h.level), h.relStart, (fun hc => nomatch hc), by
      show (0 : Nat) < _; decide⟩, hv.trans_le hle⟩
  · next hn =>
    have hle : min e.level.toNat
        (one31 - (one31 - p.sus.toNat) * (e.progress.toNat + 1) / p.dlen.toNat) ≤ e.level.toNat :=
      Nat.min_le_left _ _
    have hv := level_toNat (Nat.le_trans hle h.level)
    obtain ⟨hc, hc'⟩ := count_toNat hn
    exact ⟨⟨hv.trans_le (Nat.le_trans hle h.level), h.relStart,
      (fun hi => nomatch hs.symm.trans hi), hc.trans_lt hc'⟩, hv.trans_le hle⟩

/-- The level of Release does not rise. -/
theorem releaseLevel_le (p : EnvParams) (e : Env) (n : Nat) : releaseLevel p e n ≤ e.level.toNat := by
  unfold releaseLevel
  split
  · exact Nat.zero_le _
  · exact Nat.min_le_left _ _

/-- Release (R143, R146): levels stay levels, and do not rise; Idle is entered at level 0. -/
theorem Env.nextRelease_spec {p : EnvParams} {e : Env} (h : e.Ok) (hs : e.stage = .release) :
    (e.nextRelease p).Ok ∧ (e.nextRelease p).level.toNat ≤ e.level.toNat := by
  unfold Env.nextRelease
  simp only
  split
  · exact ⟨⟨Nat.zero_le _, h.relStart, fun _ => rfl, by show (0 : Nat) < _; decide⟩,
      Nat.zero_le _⟩
  · next hl =>
    have hn : ¬ p.rlen.toNat ≤ e.progress.toNat + 1 := fun hn => hl (by
      unfold releaseLevel
      rw [if_pos hn])
    have hle := releaseLevel_le p e (e.progress.toNat + 1)
    have hv := level_toNat (Nat.le_trans hle h.level)
    obtain ⟨hc, hc'⟩ := count_toNat hn
    exact ⟨⟨hv.trans_le (Nat.le_trans hle h.level), h.relStart,
      (fun hi => nomatch hs.symm.trans hi), hc.trans_lt hc'⟩, hv.trans_le hle⟩

theorem Env.next_ok {p : EnvParams} {e : Env} (h : e.Ok) (hp : p.sus.toNat ≤ one31) :
    (e.next p).Ok := by
  unfold Env.next
  cases hs : e.stage
  · exact ⟨Nat.zero_le _, h.relStart, fun _ => rfl, h.progress⟩
  · exact (Env.nextAttack_spec h hs).1
  · exact (Env.nextDecay_spec h hs).1
  · exact ⟨hp, h.relStart, (fun hi => nomatch (hi : EnvStage.sustain = .idle)), h.progress⟩
  · exact (Env.nextRelease_spec h hs).1

/-! ### The filter -/

/-- A Q1.15 value is its own low 16 bits. -/
theorem sext16_of_range {x : Int} (h : -2 ^ 15 ≤ x) (h' : x < 2 ^ 15) : sext16 x = x := by
  rw [sext16, BitVec.toInt_ofInt, Int.bmod_def]
  omega

/-- `sext_16` gives a Q1.15 value. -/
theorem sext16_range (x : Int) : -2 ^ 15 ≤ sext16 x ∧ sext16 x < 2 ^ 15 :=
  ⟨BitVec.le_toInt (w := 16) _, BitVec.toInt_lt (w := 16)⟩

/-- The new state of the filter lies between the old state and the input, so nothing is lost in 32 bits
(R172). -/
theorem filterNext_toInt {a : Half} (y : Word) (x : Int) (ha : a.toNat ≤ one15) (en : Bool) :
    (filterNext en a y x).toInt =
        (if en then y.toInt + (a.toNat : Int) * (sext16 x * 2 ^ 16 - y.toInt) / 2 ^ 15
          else sext16 x * 2 ^ 16) ∧
      between y.toInt (filterNext en a y x).toInt (sext16 x * 2 ^ 16) := by
  obtain ⟨hx, hx'⟩ := sext16_range x
  have h1 : -2 ^ 31 ≤ y.toInt := BitVec.le_toInt (w := 32) y
  have h2 : y.toInt < 2 ^ 31 := BitVec.toInt_lt (w := 32)
  have hb := floor_scaled_between (f := (a.toNat : Int)) (d := sext16 x * 2 ^ 16 - y.toInt) (m := 2 ^ 15)
    (by decide) (by omega) (by simp only [one15] at ha; omega)
  unfold between at hb ⊢
  simp only [filterNext]
  generalize sext16 x = x' at hx hx' hb ⊢
  generalize (a.toNat : Int) * (x' * 2 ^ 16 - y.toInt) / 2 ^ 15 = k at hb ⊢
  cases en
  · simp only [Bool.false_eq_true, if_false]
    rw [wordOfInt_toInt (by omega) (by omega)]
    exact ⟨rfl, by omega⟩
  · simp only [if_true]
    rw [wordOfInt_toInt (by omega) (by omega)]
    exact ⟨rfl, by omega⟩

/-- The filter's output is a Q1.15 value. -/
theorem filterOut_range (y : Word) : -2 ^ 15 ≤ filterOut y ∧ filterOut y < 2 ^ 15 := by
  have h1 : -2 ^ 31 ≤ y.toInt := BitVec.le_toInt (w := 32) y
  have h2 : y.toInt < 2 ^ 31 := BitVec.toInt_lt (w := 32)
  unfold filterOut
  omega

theorem filterCoef_le (b : Config.Build) (cutoff fs : Word) : (filterCoef b cutoff fs).toNat ≤ one15 := by
  rw [filterCoef, toNat_ofNat_of_lt]
  · exact Nat.min_le_right _ _
  · exact Nat.lt_of_le_of_lt (Nat.min_le_right _ _) (by decide)

/-! ### The oscillator -/

/-- Every sample of the bank of a legal build is a Q1.15 value of magnitude at most 32767
(40_wavetable.md R122 to R124). -/
theorem wt_range {b : Config.Build} (hb : b.Legal) (t i : Nat) :
    -32767 ≤ wt b t i ∧ wt b t i ≤ 32767 := by
  obtain ⟨-, hA⟩ := hb.wtAmp
  obtain ⟨-, hS⟩ := hb.sineAmp
  have hN : 0 < b.tableLen := Nat.two_pow_pos _
  have hsaw : ∀ k, k < b.tableLen → -32767 ≤ sawtooth b k ∧ sawtooth b k ≤ 32767 := by
    intro k hk
    have h0 : 0 ≤ 2 * (b.wtAmp : Int) * k / b.tableLen := Int.ediv_nonneg (by positivity) (by omega)
    have h1 : 2 * (b.wtAmp : Int) * k / b.tableLen ≤ 2 * b.wtAmp :=
      Int.ediv_le_of_le_mul (by omega)
        (Int.mul_le_mul_of_nonneg_left (by omega) (by omega))
    unfold sawtooth
    omega
  have hsin : ∀ k, -32767 ≤ sine b k ∧ sine b k ≤ 32767 := by
    intro k
    have := hb.sine_le k
    unfold sine
    omega
  have hwave : ∀ k, k < b.tableLen → -32767 ≤ waveSample b t k ∧ waveSample b t k ≤ 32767 := by
    intro k hk
    unfold waveSample
    split
    · exact hsaw k hk
    · split
      · unfold square
        split <;> omega
      · exact hsin k
  unfold wt
  split
  · exact hwave i ‹_›
  · exact hwave 0 hN

/-- The interpolated sample lies between the two samples it is read from (R132). -/
theorem oscSample_between (b : Config.Build) (t : Nat) (phase : Word) :
    between (wt b t (phase.toNat / 2 ^ b.fracBits)) (oscSample b t phase)
      (wt b t (phase.toNat / 2 ^ b.fracBits + 1)) := by
  have hp : 0 < 2 ^ b.fracBits := Nat.two_pow_pos _
  have hb := floor_scaled_between (f := ((phase.toNat % 2 ^ b.fracBits : Nat) : Int))
    (d := wt b t (phase.toNat / 2 ^ b.fracBits + 1) - wt b t (phase.toNat / 2 ^ b.fracBits))
    (m := 2 ^ b.fracBits) (by positivity) (by omega) (by
      have := Nat.mod_lt phase.toNat hp
      exact_mod_cast Nat.le_of_lt this)
  unfold oscSample
  simp only
  generalize ((phase.toNat % 2 ^ b.fracBits : Nat) : Int) *
    (wt b t (phase.toNat / 2 ^ b.fracBits + 1) - wt b t (phase.toNat / 2 ^ b.fracBits)) /
      2 ^ b.fracBits = k at hb ⊢
  unfold between at hb ⊢
  omega

/-- The interpolated sample is a Q1.15 value (R132). -/
theorem oscSample_range {b : Config.Build} (hb : b.Legal) (t : Nat) (phase : Word) :
    -32767 ≤ oscSample b t phase ∧ oscSample b t phase ≤ 32767 := by
  have h := oscSample_between b t phase
  have h0 := wt_range hb t (phase.toNat / 2 ^ b.fracBits)
  have h1 := wt_range hb t (phase.toNat / 2 ^ b.fracBits + 1)
  unfold between at h
  omega

/-- At the default width an identifier is `arg16` itself (00_scope.md R5). -/
theorem noteId_of_width {b : Config.Build} (h : b.noteIdW = 16) (id : Half) : b.noteId id = id := by
  rw [Config.Build.noteId, h, Nat.mod_eq_of_lt id.isLt, BitVec.ofNat_toNat, BitVec.setWidth_eq]

/-! ### The per-sample datapath (45_voice.md R186) -/

/-- The cross-fade of two Q1.15 samples is between them. -/
theorem crossFade_between {m15 : Nat} (h : m15 ≤ one15) (s0 s1 : Int) :
    between s0 (crossFade m15 s0 s1) s1 := by
  have hb := floor_scaled_between (f := (m15 : Int)) (d := s1 - s0) (m := 2 ^ 15) (by decide)
    (by omega) (by simp only [one15] at h; omega)
  unfold crossFade
  generalize (m15 : Int) * (s1 - s0) / 2 ^ 15 = k at hb ⊢
  unfold between at hb ⊢
  omega

/-- A sample scaled by a gain in [0, 1] keeps its range: the magnitude does not grow beyond the floor's
own step (R186). -/
theorem scaled_range {x : Int} {g : Nat} (h : g ≤ one15) (hx : -2 ^ 15 ≤ x) (hx' : x < 2 ^ 15) :
    -2 ^ 15 ≤ x * (g : Int) / 2 ^ 15 ∧ x * (g : Int) / 2 ^ 15 < 2 ^ 15 := by
  have hb := floor_scaled_between (f := (g : Int)) (d := x) (m := 2 ^ 15) (by decide) (by omega)
    (by simp only [one15] at h; omega)
  rw [Int.mul_comm]
  generalize (g : Int) * x / 2 ^ 15 = k at hb ⊢
  unfold between at hb
  omega

theorem ampGain_le {amp : Half} {p : Word} (ha : amp.toNat ≤ one15) (hp : p.toNat ≤ one31) :
    ampGain amp p ≤ one15 := by
  have h := Nat.mul_le_mul ha (top16_le hp)
  unfold ampGain
  simp only [one15] at *
  omega

/-- The filter's input is a Q1.15 value (R186). -/
theorem voiceInput_range {smp : Int} {level : Word} {g : Nat} (hs : -2 ^ 15 ≤ smp)
    (hs' : smp < 2 ^ 15) (hl : level.toNat ≤ one31) (hg : g ≤ one15) :
    -2 ^ 15 ≤ voiceInput smp level g ∧ voiceInput smp level g < 2 ^ 15 := by
  obtain ⟨h1, h2⟩ := scaled_range (top16_le hl) hs hs'
  exact scaled_range hg h1 h2

end Sys2Proof.Machine
end

