-- ==== Sys2Proof/Laws/Voice.lean ====
section
/-! SUPPORT. What the voice operations keep and change: the parts of a voice stay well kept (R37), one
sample and a run of samples touch one voice slot and their own words of the output buffer (45_voice.md
R186, R187). -/

namespace Sys2Proof.Machine

/-! ### Voices stay well kept -/

theorem Voice.zero_ok : Voice.zero.Ok :=
  ⟨⟨Nat.zero_le _, Nat.zero_le _, fun _ => rfl, by decide⟩,
    ⟨by decide, by decide, fun _ h => absurd rfl h⟩,
    ⟨by decide, by decide, fun _ h => absurd rfl h⟩,
    ⟨by decide, by decide, fun _ h => absurd rfl h⟩⟩

theorem Voice.assign_ok {x : Voice} (h : x.Ok) (seq : Word) (id : Half) (f p tb : Word) :
    (x.assign seq id f p tb).Ok :=
  ⟨Env.noteOn_ok h.env, Ramp.setTarget_ok h.pressure _, Ramp.setTarget_ok h.timbre _,
    Ramp.setTarget_ok h.frequency _⟩

theorem Voice.setPressure_ok {x : Voice} (h : x.Ok) (w : Word) : (x.setPressure w).Ok := by
  unfold Voice.setPressure
  split
  · exact h
  · exact ⟨h.env, Ramp.setTarget_ok h.pressure _, h.timbre, h.frequency⟩

theorem Voice.setPitch_ok {x : Voice} (h : x.Ok) (f : Word) : (x.setPitch f).Ok := by
  unfold Voice.setPitch
  split
  · exact h
  · exact ⟨h.env, h.pressure, h.timbre, Ramp.setTarget_ok h.frequency _⟩

theorem Voice.setTimbre_ok {x : Voice} (h : x.Ok) (w : Word) : (x.setTimbre w).Ok := by
  unfold Voice.setTimbre
  split
  · exact h
  · exact ⟨h.env, h.pressure, Ramp.setTarget_ok h.timbre _, h.frequency⟩

theorem Voice.release_ok {x : Voice} (h : x.Ok) : x.release.Ok := by
  unfold Voice.release
  split
  · exact ⟨Env.noteOff_ok h.env, h.pressure, h.timbre, h.frequency⟩
  · exact h

theorem Voice.clearNote_ok {x : Voice} (h : x.Ok) : x.clearNote.Ok :=
  ⟨h.env, h.pressure, h.timbre, h.frequency⟩

theorem Voice.sounded_ok {s : State} {x : Voice} (h : x.Ok) (hp : s.envParams.sus.toNat ≤ one31) :
    (x.sounded s).Ok :=
  ⟨Env.next_ok h.env hp, Ramp.next_ok h.pressure, Ramp.next_ok h.timbre, Ramp.next_ok h.frequency⟩

/-- A voice slot, built or not, is well kept if the built ones are. -/
theorem voice_ok {s : State} (h : ∀ v, v < s.voices.length → (s.voice v).Ok) (v : Nat) :
    (s.voice v).Ok := by
  by_cases hv : v < s.voices.length
  · exact h v hv
  · have : s.voice v = Voice.zero := by
      rw [State.voice, List.getElem?_eq_none (Nat.not_lt.1 hv)]
      rfl
    rw [this]
    exact Voice.zero_ok

/-! ### One sample and a run of samples -/

/-- What a voice becomes by one sample (R186). -/
def Voice.sampled (s : State) (x : Voice) : Voice :=
  if x.env.stage = .idle then x.clearNote else x.sounded s

/-- What one sample does to the output buffer (R186). -/
def sampledOut (s : State) (v n : Nat) : OutBuf :=
  if (s.voice v).env.stage = .idle then s.out
  else mixAddAll s.build s.out s.numCh.toNat n (filterOut ((s.voice v).sounded s).filtY)

/-- One sample changes the voice's slot and the output buffer, and nothing else (R186). -/
theorem sampleVoice_eq (s : State) (v n : Nat) :
    s.sampleVoice v n =
      { s.setVoice v ((s.voice v).sampled s) with out := sampledOut s v n } := by
  unfold State.sampleVoice Voice.sampled sampledOut
  simp only
  split <;> rfl

/-- The states that differ in voice slot `v` and in the words of the samples `a` to `b` − 1 only. -/
structure VoiceFrame (v a b : Nat) (s t : State) : Prop where
  rest : t = { s with voices := t.voices, out := t.out }
  others : ∀ w, w ≠ v → t.voice w = s.voice w
  slots : t.voices.length = s.voices.length
  words : OutBuf.wf s.build s.out → OutBuf.wf s.build t.out ∧
    ∀ c n, ¬(c < s.numCh.toNat ∧ a ≤ n ∧ n < b) →
      readOut s.build t.out c n = readOut s.build s.out c n

theorem VoiceFrame.refl (v a b : Nat) (s : State) : VoiceFrame v a b s s :=
  ⟨rfl, fun _ _ => rfl, rfl, fun h => ⟨h, fun _ _ _ => rfl⟩⟩

theorem VoiceFrame.numCh {v a b : Nat} {s t : State} (h : VoiceFrame v a b s t) :
    t.numCh = s.numCh := by rw [h.rest]

theorem VoiceFrame.build {v a b : Nat} {s t : State} (h : VoiceFrame v a b s t) :
    t.build = s.build := by rw [h.rest]

theorem VoiceFrame.trans {v a b : Nat} {s t u : State} (h : VoiceFrame v a b s t)
    (h' : VoiceFrame v a b t u) : VoiceFrame v a b s u where
  rest := by
    rw [h'.rest, h.rest]
  others := fun w hw => (h'.others w hw).trans (h.others w hw)
  slots := h'.slots.trans h.slots
  words := fun hs => by
    obtain ⟨h1, h2⟩ := h.words hs
    have hw := h'.words
    rw [h.build] at hw
    obtain ⟨h3, h4⟩ := hw h1
    exact ⟨h3, fun c n hn => (h4 c n (by rw [h.numCh]; exact hn)).trans (h2 c n hn)⟩

/-- One sample (R186). -/
theorem sampleVoice_frame (s : State) (v n : Nat) {a b : Nat} (ha : a ≤ n) (hb : n < b) :
    VoiceFrame v a b s (s.sampleVoice v n) := by
  rw [sampleVoice_eq]
  refine ⟨rfl, fun w hw => ?_, by simp, fun hs => ?_⟩
  · show (s.setVoice v _).voice w = _
    rw [voice_setVoice, if_neg (fun h => hw h.1.symm)]
  · show OutBuf.wf s.build (sampledOut s v n) ∧
      ∀ c m, _ → readOut s.build (sampledOut s v n) c m = _
    unfold sampledOut
    split
    · exact ⟨hs, fun _ _ _ => rfl⟩
    · refine ⟨mixAddAll_wf hs _ _ _, fun c m hm => ?_⟩
      rw [readOut_mixAddAll hs, if_neg]
      rintro ⟨h1, rfl, -⟩
      exact hm ⟨h1, ha, hb⟩

/-- A run of samples (R187). -/
theorem renderRun_frame (v k n : Nat) (s : State) {a b : Nat} (ha : a ≤ n) (hb : n + k ≤ b) :
    VoiceFrame v a b s (State.renderRun v k n s) := by
  induction k generalizing n s with
  | zero => exact VoiceFrame.refl v a b s
  | succ k ih =>
    exact (sampleVoice_frame s v n ha (by omega)).trans
      (ih (n + 1) _ (by omega) (by omega))

/-- A property of the rendered voice and the shared registers that one sample keeps, a run keeps. -/
theorem renderRun_induct {P : State → Prop} (v : Nat) (h : ∀ s n, P s → P (s.sampleVoice v n))
    (k n : Nat) (s : State) (hs : P s) : P (State.renderRun v k n s) := by
  induction k generalizing n s with
  | zero => exact hs
  | succ k ih => exact ih (n + 1) _ (h s n hs)

end Sys2Proof.Machine
end

