-- ==== Sys2Proof/Tests/Slice0.lean ====
section
/-! SUPPORT. The model's own tests: the port checks, every command's word decoded, one step of each command
against the vectors of 95_test_vectors.md (the vector's name stands in the docstring), and for each
statement with hypotheses a witness that they can be met. -/

namespace Sys2Proof.Machine.Tests

open Sys2Proof Sys2Proof.Machine

-- The tests are checked one after another: each `decide +kernel` in flight would hold a thread.
set_option Elab.async false

/-! ### WellFormed (30_encoding.md R93, R96) -/

/-- `SETGLOBAL` is no command of the render port (X3). -/
theorem test_wf_setglobal_render : WellFormed .render (.setglobal 5 0) = false := by decide

/-- A command of the render port alone is refused on the control port (X14). -/
theorem test_wf_render_control : WellFormed .control (.render 2 64) = false := by decide

/-- Store index 7 names no word (X15). -/
theorem test_wf_store_index : WellFormed .control (.setglobal 7 0) = false := by decide

theorem test_wf_accepts :
    (WellFormed .render .nop && WellFormed .control (.setglobal 6 0) &&
      WellFormed .control (.evNoteoff 1 0 0 0) && WellFormed .render (.evNoteoff 1 0 0 0)) = true := by
  decide

/-! ### Decoding: words written out from R91 and R93 -/

theorem test_decode_system :
    decode ⟨0x00000000, 9, 9, 9⟩ = some .nop ∧
    decode ⟨0x01000000, 0xBB80, 0x200, 1⟩ = some (.prepare 0xBB80 0x200 1) ∧
    decode ⟨0x02000000, 2, 0x40, 9⟩ = some (.render 2 0x40) ∧
    decode ⟨0x03000002, 0xFFFF, 0, 0⟩ = some (.wrcfg 2 0xFFFF) ∧
    decode ⟨0x040F0130, 0, 0, 0⟩ = some (.rdreg 15 0x0130) ∧
    decode ⟨0x10000005, 0x40000000, 0, 0⟩ = some (.setglobal 5 0x40000000) := by decide

theorem test_decode_events :
    decode ⟨0x2000ABCD, 1, 2, 3⟩ = some (.evNoteon 0xABCD 1 2 3) ∧
    decode ⟨0x21000063, 1, 2, 3⟩ = some (.evNoteoff 0x63 1 2 3) ∧
    decode ⟨0x22000063, 0x4000, 2, 3⟩ = some (.evPressure 0x63 0x4000 2 3) ∧
    decode ⟨0x23000001, 0x03700000, 0, 0⟩ = some (.evPitch 1 0x03700000 0 0) ∧
    decode ⟨0x24000001, 0x2000, 0, 0⟩ = some (.evTimbre 1 0x2000 0 0) := by decide

theorem test_decode_sources :
    decode ⟨0x30010100, 0, 0, 0⟩ = some (.wtRead 1 256) ∧
    decode ⟨0x40000001, 0x01B80000, 0xBB80, 0⟩ = some (.oscSetfreq 0 1 0x01B80000 0xBB80) ∧
    decode ⟨0x41050007, 0, 0, 0⟩ = some (.oscNext 5 7) ∧
    decode ⟨0x420A0001, 0, 0, 0⟩ = some (.oscReset 10 1) ∧
    decode ⟨0x50030000, 0, 0, 0⟩ = some (.envNoteon 3) ∧
    decode ⟨0x51030000, 0, 0, 0⟩ = some (.envNoteoff 3) ∧
    decode ⟨0x52030000, 0, 0, 0⟩ = some (.envNext 3) ∧
    decode ⟨0x53030000, 0, 0, 0⟩ = some (.envIsactive 3) ∧
    decode ⟨0x54000000, 0, 0, 0⟩ = some .envLoadp := by decide

theorem test_decode_ramps :
    decode ⟨0x60000003, 0x80000000, 0, 0⟩ = some (.rmpSettarget 0 3 0x80000000) ∧
    decode ⟨0x61000002, 0xBB80, 0x400, 0⟩ = some (.rmpReset 0 2 0xBB80 0x400) ∧
    decode ⟨0x62010003, 0, 0, 0⟩ = some (.rmpNext 1 3) ∧
    decode ⟨0x630F0001, 0, 0, 0⟩ = some (.rmpGetcur 15 1) ∧
    decode ⟨0x70000000, 0x03E80000, 0xBB80, 0⟩ = some (.fltCoef 0x03E80000 0xBB80) ∧
    decode ⟨0x71020000, 0x4000, 0, 0⟩ = some (.fltNext 2 0x4000) ∧
    decode ⟨0x72020000, 0, 0, 0⟩ = some (.fltClear 2) := by decide

theorem test_decode_voices :
    decode ⟨0x80020001, 0x01B80000, 0x8000, 7⟩ = some (.vAssign 2 1 0x01B80000 0x8000 7) ∧
    decode ⟨0x81020000, 0x4000, 0, 0⟩ = some (.vPressure 2 0x4000) ∧
    decode ⟨0x82020000, 0x03700000, 0, 0⟩ = some (.vPitch 2 0x03700000) ∧
    decode ⟨0x83020000, 0x2000, 0, 0⟩ = some (.vTimbre 2 0x2000) ∧
    decode ⟨0x84020000, 0, 0, 0⟩ = some (.vRelease 2) ∧
    decode ⟨0x85020000, 500, 12, 0⟩ = some (.vRender 2 500 12) ∧
    decode ⟨0x90000000, 2, 0x200, 0⟩ = some (.mixClear 2 0x200) ∧
    decode ⟨0x91000005, 0xC000, 0, 0⟩ = some (.mixAcc 5 0xC000) ∧
    decode ⟨0x92010005, 0, 0, 0⟩ = some (.mixRead 1 5) ∧
    decode ⟨0x93010005, 0, 0, 0⟩ = some (.mixReadsat 1 5) := by decide

/-- A reserved opcode or a non-zero unused field of W0 is no command (R95; X1, X2, X4, X7, X15). -/
theorem test_decode_refuses :
    decode ⟨0x05000000, 0, 0, 0⟩ = none ∧ decode ⟨0xFF000000, 0, 0, 0⟩ = none ∧
    decode ⟨0x00010000, 0, 0, 0⟩ = none ∧ decode ⟨0x50000001, 0, 0, 0⟩ = none ∧
    decode ⟨0x20010001, 0, 0, 0⟩ = none ∧ decode ⟨0xAB000000, 0, 0, 0⟩ = none ∧
    decode ⟨0x02000001, 0, 0, 0⟩ = none ∧ decode ⟨0x90010000, 0, 0, 0⟩ = none := by decide

/-- The encoder and the table numbering of bits agree: W1 is bits 63..32 (R90). -/
theorem test_table_word :
    decodeTableWord 128 0x00000000000000010000_0200_0000BB80_01000000 =
      some (.prepare 0xBB80 0x200 1) := by decide

/-- The byte image of a word (R65): least significant byte first. -/
theorem test_bytes : wordBytes 0x04D50531 = [0x31, 0x05, 0xD5, 0x04] := by decide

/-! ### One step on one port -/

/-- The state after a port has taken a word. -/
def give (p : Port) (w0 w1 w2 w3 : Word) (s : State) : State :=
  match step (match p with
    | .render => { s with turns := [.render], renderIn := [⟨w0, w1, w2, w3⟩] }
    | .control => { s with turns := [.control], controlIn := [⟨w0, w1, w2, w3⟩] }) with
  | .next t => t
  | _ => s

/-- `PREPARE fs=48000, mb=512, poly` from reset. -/
def prep (poly : Word) : State := give .render 0x01000000 0xBB80 0x200 poly State.reset

/-- `prep 1` with the first slot's voice replaced. -/
def prepWith (f : Voice → Voice) : State := (prep 1).updVoice 0 f

/-- `prep 1` with ramp `RMP[0][0]` replaced. -/
def prepRamp (q : Ramp) : State := prepWith fun x => { x with pressure := q }

/-! ### The vectors of 95_test_vectors.md, one step each -/

/-- S1 -/
theorem test_nop : give .render 0 0 0 0 State.reset = State.reset := by decide +kernel

/-- S2 -/
theorem test_prepare :
    (prep 1).status = ⟨true, false, false, false, false⟩ ∧
    (prep 1).envParams = ⟨750, 6000, 0x60000000, 12000⟩ ∧ (prep 1).filtA = 0x10C1 ∧
    (prep 1).grCutoff = ⟨0x03E80000, 0x03E80000, 0, 0, 750, 0x002BB0CF, .linear⟩ := by decide +kernel

/-- X8 to X10: the checks in their order. -/
theorem test_prepare_checks :
    (give .render 0x01000000 0 0 0 State.reset).faultCause = 3 ∧
    (give .render 0x01000000 0xBB80 0 17 State.reset).faultCause = 4 ∧
    (give .render 0x01000000 0xBB80 4097 1 State.reset).faultCause = 5 := by decide +kernel

/-- The begin step of P1's first block: the note waits for it, then voice 0 has it. -/
theorem test_render :
    let s := give .render 0x02000000 2 0x200 0
      (give .control 0x20000001 0x01B80000 0x8000 0 (prep 1))
    s.phase = .body 0x200 ∧ s.numCh = 2 ∧ s.numSamp = 0x200 ∧ s.evq = [] ∧
      (s.voice 0).vstate = .assigned ∧ (s.voice 0).noteId = 1 := by decide +kernel

/-- S10, X5 -/
theorem test_render_faults :
    (give .render 0x02000000 3 1 0 (prep 1)).faultCause = 6 ∧
    (give .render 0x02000000 2 513 0 (prep 1)).faultCause = 6 ∧
    (give .render 0x02000000 2 64 0 State.reset).faultCause = 2 := by decide +kernel

/-- S4, S5 -/
theorem test_wrcfg :
    (give .render 0x03000002 0xFFFF 0 0 State.reset).cfgAmpScale = 0x8000 ∧
    (give .render 0x03000000 0xFFFFFFF5 0 0 State.reset).cfgCtrl = 5 := by decide +kernel

/-- X16 -/
theorem test_wrcfg_flags :
    (give .render 0x03000003 0x1C 0 0
      { State.reset with status := ⟨true, false, true, true, true⟩ }).status =
      ⟨true, false, false, false, false⟩ := by decide +kernel

/-- S3 -/
theorem test_rdreg :
    (give .render 0x04000000 0 0 0 State.reset).result = 0x4D505331 ∧
    (give .render 0x04000046 0 0 0 State.reset).result = 0x80000000 ∧
    (give .render 0x04000001 0 0 0 (prep 1)).result = 1 := by decide +kernel

/-- X12, and P6: a `RDREG` that would fault is ignored while halted. -/
theorem test_rdreg_bad :
    (give .render 0x0400000C 0 0 0 State.reset).faultCause = 7 ∧
    (give .render 0x04100100 0 0 0 State.reset).faultW0 = 0x04100100 ∧
    (give .render 0x04000FFF 0 0 0 (give .render 0x05000000 0 0 0 State.reset)).faultCause = 1 := by
  decide +kernel

/-- S6, X3 -/
theorem test_setglobal :
    (give .control 0x10000005 0x40000000 0 0 State.reset).store.mix = 0x40000000 ∧
    (give .render 0x10000005 0x40000000 0 0 State.reset).faultCause = 1 := by decide +kernel

/-- X14, X15 -/
theorem test_control_refuses :
    (give .control 0x02000000 2 64 0 (prep 1)).status.word = 0x11 ∧
    (give .control 0x10000007 0 0 0 (prep 1)).status.word = 0x11 ∧
    (give .control 0xAB000000 0 0 0 (prep 1)).status.word = 0x11 := by decide +kernel

/-- X1, X13: fault entry, and the halt. -/
theorem test_fault :
    let s := give .render 0x05000000 0 0 0 State.reset
    s.status.word = 2 ∧ s.faultCause = 1 ∧ s.faultW0 = 0x05000000 ∧
      give .render 0x01000000 0xBB80 0x200 1 s = s := by decide +kernel

/-- S7, A5 -/
theorem test_noteon :
    (give .control 0x20000001 0x01B80000 0x8000 0 (prep 1)).evqCount = 1 ∧
    (give .control 0x20000001 0x01B80000 0x8000 0 (prep 1)).voice 0 = (prep 1).voice 0 ∧
    ((give .render 0x20000001 0x01B80000 0x8000 0 (prep 1)).voice 0).vstate = .assigned := by
  decide +kernel

/-- S8: the 65th event. -/
theorem test_event_overflow :
    let s := give .control 0x21000001 0 0 0
      { prep 1 with evq := List.replicate 64 ⟨.noteOff, 1, 0, 0, 0⟩ }
    s.evqCount = 64 ∧ s.status.evqOvf = true := by decide +kernel

/-- A4 and R207 on a held note. -/
theorem test_controllers :
    let s := give .render 0x20000001 0x01B80000 0x8000 0 (prep 1)
    ((give .render 0x21000001 0 0 0 s).voice 0).vstate = .releasing ∧
    ((give .render 0x22000001 0xFFFF 0 0 s).voice 0).pressure.tgt = 0x80000000 ∧
    ((give .render 0x23000001 0x03700000 0 0 s).voice 0).frequency.tgt = 0x03700000 ∧
    ((give .render 0x24000001 0x2000 0 0 s).voice 0).timbre.tgt = 0x20000000 := by decide +kernel

/-- W2, W5, W13, W15 -/
theorem test_wt_read :
    (give .render 0x30000001 0 0 0 State.reset).result = 0xFFFF8100 ∧
    (give .render 0x30000100 0 0 0 State.reset).result = 0xFFFF8001 ∧
    (give .render 0x300200FF 0 0 0 State.reset).result = 0xFFFFFCDC ∧
    (give .render 0x30030000 0 0 0 State.reset).faultCause = 7 := by decide +kernel

/-- O1, O15 -/
theorem test_osc_setfreq :
    ((give .render 0x40000000 0x01B80000 0xBB80 0 (prep 1)).voice 0).osc0.inc = 0x0258BF25 ∧
    (give .render 0x40000000 0x01B80000 0 0 (prep 1)).faultCause = 8 := by decide +kernel

/-- O4, O7 -/
theorem test_osc_next :
    (give .render 0x41000000 0 0 0 (prepWith fun x => { x with osc0 := ⟨0x00800000, 0⟩ })).result =
      0xFFFF8080 ∧
    (give .render 0x41000000 0 0 0 (prepWith fun x => { x with osc0 := ⟨0xFF800000, 0⟩ })).result =
      0xFFFFFF80 := by decide +kernel

/-- O8: the wrap. -/
theorem test_osc_wrap :
    ((give .render 0x41000000 0 0 0 (prepWith fun x =>
      { x with osc0 := ⟨0xFFFFFFFF, 2⟩ })).voice 0).osc0 = ⟨1, 2⟩ := by decide +kernel

/-- O13 -/
theorem test_osc_reset :
    ((give .render 0x42000000 0 0 0 (prepWith fun x =>
      { x with osc0 := ⟨7, 9⟩, osc1 := ⟨7, 9⟩ })).voice 0).osc0 = ⟨0, 9⟩ := by decide +kernel

/-- E2's start -/
theorem test_env_noteon :
    ((give .render 0x50000000 0 0 0 (prepWith fun x =>
      { x with env := ⟨.sustain, 5, 6, 7⟩ })).voice 0).env = ⟨.attack, 0, 0, 7⟩ := by decide +kernel

/-- E3's start -/
theorem test_env_noteoff :
    ((give .render 0x51000000 0 0 0 (prepWith fun x =>
      { x with env := ⟨.sustain, 0x40000000, 0, 0⟩ })).voice 0).env =
      ⟨.release, 0x40000000, 0, 0x40000000⟩ := by decide +kernel

/-- E6: the first and the last release call. -/
theorem test_env_next_release :
    let s := fun k => give .render 0x52000000 0 0 0 { prepWith (fun x =>
      { x with env := ⟨.release, 0x50000001, k, 0x50000001⟩ }) with envParams := ⟨4, 4, 0, 3⟩ }
    (s 0).result = 0x35555556 ∧ (s 2).result = 0 ∧ ((s 2).voice 0).env.stage = .idle := by
  decide +kernel

/-- E2: the last Attack call, and the first Decay call. -/
theorem test_env_next :
    let s := fun e : Env => give .render 0x52000000 0 0 0 { prepWith (fun x =>
      { x with env := e }) with envParams := ⟨4, 4, 0x40000000, 4⟩ }
    ((s ⟨.attack, 0x60000000, 3, 0⟩).voice 0).env = ⟨.decay, 0x80000000, 0, 0⟩ ∧
    (s ⟨.decay, 0x80000000, 0, 0⟩).result = 0x70000000 := by decide +kernel

/-- E8 -/
theorem test_env_isactive :
    (give .render 0x53000000 0 0 0 (prep 1)).result = 0 ∧
    (give .render 0x53000000 0 0 0 (give .render 0x50000000 0 0 0 (prep 1))).result = 1 := by
  decide +kernel

/-- E1 -/
theorem test_env_loadp :
    (give .render 0x54000000 0 0 0 { prep 1 with envParams := ⟨1, 1, 1, 1⟩ }).envParams =
      ⟨750, 6000, 0x60000000, 12000⟩ := by decide +kernel

/-- R2, R6 -/
theorem test_rmp_settarget :
    ((give .render 0x60000000 0x80000000 0 0
      (prepRamp ⟨0, 0, 0, 0, 4, 0x20000000, .linear⟩)).voice 0).pressure =
      ⟨0, 0x80000000, 0x20000000, 4, 4, 0x20000000, .linear⟩ ∧
    ((give .render 0x60000000 0 0 0
      (prepRamp ⟨0xFFFFFFFF, 0xFFFFFFFF, 0, 0, 4, 0x20000000, .linear⟩)).voice 0).pressure.step.toInt =
      -1073741823 := by decide +kernel

/-- R9: an instant ramp. -/
theorem test_rmp_settarget_instant :
    ((give .render 0x60000000 123 0 0
      (prepRamp ⟨0, 0, 0, 0, 0, 0x80000000, .linear⟩)).voice 0).pressure.cur = 123 := by decide +kernel

/-- R1, R12 -/
theorem test_rmp_reset :
    ((give .render 0x61000002 0xBB80 0x400 0
      (prepWith fun x => { x with frequency := ⟨5, 9, 1, 1, 4, 1, .exponential⟩ })).voice 0).frequency =
      ⟨9, 9, 0, 0, 750, 0x002BB0CF, .linear⟩ ∧
    (give .render 0x61000000 0 0x400 0 (prep 1)).faultCause = 8 := by decide +kernel

/-- R3, R7: the exponential tick up and down. -/
theorem test_rmp_next_exponential :
    (give .render 0x62000000 0 0 0
      (prepRamp ⟨0x20000000, 0x80000000, 0, 0, 4, 0x20000000, .exponential⟩)).result = 0x38000000 ∧
    (give .render 0x62000000 0 0 0
      (prepRamp ⟨10, 0, 0, 0, 4, 0x20000000, .exponential⟩)).result = 7 := by decide +kernel

/-- R5: a middle tick and the last, which lands on the target. -/
theorem test_rmp_next_linear :
    (give .render 0x62000000 0 0 0
      (prepRamp ⟨10, 0, 0x1FFFFFFFE, 4, 4, 0x20000000, .linear⟩)).result = 8 ∧
    (give .render 0x62000000 0 0 0
      (prepRamp ⟨4, 0, 0x1FFFFFFFE, 1, 4, 0x20000000, .linear⟩)).result = 0 := by decide +kernel

/-- R11 and the global select. -/
theorem test_rmp_getcur :
    (give .render 0x63000003 0 0 0 (prep 1)).result = 0x03E80000 ∧
    (give .render 0x63010003 0 0 0 (prep 1)).faultCause = 7 := by decide +kernel

/-- F1, F2 -/
theorem test_flt_coef :
    (give .render 0x70000000 0x03E80000 0xBB80 0 (prep 1)).filtA = 0x10C1 ∧
    (give .render 0x70000000 0x1DD70000 0xBB80 0 (prep 1)).filtA = 0x7FFE ∧
    (give .render 0x70000000 0x1DD80000 0xBB80 0 (prep 1)).filtA = 0x8000 := by decide +kernel

/-- F4's second call, F5's first -/
theorem test_flt_next :
    (give .render 0x71000000 0x4000 0 0 (prepWith fun x => { x with filtY := 0x08608000 })).result =
      4008 ∧
    ((give .render 0x71000000 0xFFFF 0 0 (prep 1)).voice 0).filtY = 0xFFFFDE7E := by decide +kernel

/-- F8 -/
theorem test_flt_next_off :
    (give .render 0x71000000 0x1234 0 0 { prep 1 with cfgCtrl := 0 }).result = 0x1234 := by
  decide +kernel

/-- F9 -/
theorem test_flt_clear :
    ((give .render 0x72000000 0 0 0 (prepWith fun x => { x with filtY := 5 })).voice 0).filtY = 0 := by
  decide +kernel

/-- V1 after `V.ASSIGN` -/
theorem test_v_assign :
    let s := give .render 0x80000001 0x01B80000 0x8000 0 (prep 1)
    s.assignSeq = 1 ∧ (s.voice 0).vstate = .assigned ∧ (s.voice 0).env.stage = .attack ∧
    (s.voice 0).pressure = ⟨0, 0x80000000, 2863311, 750, 750, 0x002BB0CF, .linear⟩ ∧
    (s.voice 0).frequency.step = 38447 := by decide +kernel

/-- V5 and R182 to R185 on a sounding voice. -/
theorem test_v_updates :
    let s := give .render 0x80000001 0x01B80000 0x8000 0 (prep 1)
    (give .render 0x81000000 0x4000 0 0 (prep 1)).voice 0 = (prep 1).voice 0 ∧
    ((give .render 0x81000000 0x4000 0 0 s).voice 0).pressure.tgt = 0x40000000 ∧
    ((give .render 0x82000000 0x03700000 0 0 s).voice 0).frequency.tgt = 0x03700000 ∧
    ((give .render 0x83000000 0x2000 0 0 s).voice 0).timbre.tgt = 0x20000000 ∧
    ((give .render 0x84000000 0 0 0 s).voice 0).vstate = .releasing := by decide +kernel

/-- V1: the first sample. -/
theorem test_v_render :
    let s := give .render 0x85000000 0 1 0 (give .render 0x80000001 0x01B80000 0x8000 0
      (give .render 0x90000000 2 0x200 0 (prep 1)))
    (s.voice 0).osc0.inc = 0xCD0C ∧ (s.voice 0).env.level = 0x002BB0CF ∧
    (s.voice 0).filtY = 0xFFFFDE7E ∧ readOut s.build s.out 1 0 = 0xFFFFFFFF := by decide +kernel

/-- V5: the range check. -/
theorem test_v_render_range :
    (give .render 0x85000000 500 13 0 (give .render 0x90000000 2 0x200 0 (prep 1))).faultCause = 7 := by
  decide +kernel

/-- M1, M6 -/
theorem test_mix_clear :
    (give .render 0x90000000 2 0x200 0 { prep 1 with out := [(0, 5), (600, 7)] }).out =
      [(600, 7)] ∧
    (give .render 0x90000000 3 1 0 (prep 1)).faultCause = 6 := by decide +kernel

/-- M2 and P6: the sum is exact beyond 16 bits, on every channel. -/
theorem test_mix_acc :
    let s := give .render 0x91000005 0xC000 0 0
      { give .render 0x90000000 2 0x200 0 (prep 1) with out := [(5, 0xFFFF8000), (4101, 0xFFFF8000)] }
    readOut s.build s.out 0 5 = 0xFFFF4000 ∧ readOut s.build s.out 1 5 = 0xFFFF4000 := by decide +kernel

/-- M3 to M5 -/
theorem test_mix_read :
    let s := { give .render 0x90000000 2 0x200 0 (prep 1) with out := [(4101, 0xFFFF4000)] }
    (give .render 0x92010005 0 0 0 s).result = 0xFFFF4000 ∧
    (give .render 0x93010005 0 0 0 s).result = 0xFFFF8000 ∧
    (give .render 0x92020000 0 0 0 s).faultCause = 7 := by decide +kernel

/-- Reset leaves the reset state, and keeps what is not yet presented (R280). -/
theorem test_reset :
    (match step { prep 1 with turns := [.reset] } with | .next t => t | _ => prep 1) = State.reset := by
  decide +kernel

/-- The host's placing of a word: the very next step runs it. -/
theorem test_withFetchWord :
    (match step (State.reset.withFetchWord 128 0x01000000) with
      | .next t => t.faultCause | _ => 0) = 3 ∧
    (match step (State.reset.withFetchWord 128 0x4_10000005) with
      | .next t => t.store.mix | _ => 0) = 0x4 := by decide +kernel

/-! ### Witnesses: states that meet the hypotheses of the statements -/

/-- An envelope in stage `st`, silent in Idle. -/
def envAt (st : EnvStage) : Env :=
  ⟨st, if st = .idle then 0 else 0x40000000, 3, 0x50000000⟩

/-- A held note in stage `st`. -/
def sounding (st : EnvStage) (id : Half) : Voice :=
  { Voice.zero with
    vstate := .assigned
    noteId := id
    osc0 := ⟨0x00800000, 0x0258BF25⟩
    osc1 := ⟨0x00800000, 0x0258BF25⟩
    env := envAt st
    filtY := 0xFFFFDE7E }

/-- A prepared block of two voices, two channels and four samples, the render port's turn. -/
def play (x y : Voice) : State :=
  { (State.reset.setVoice 0 x).setVoice 1 y with
    status := ⟨true, false, false, false, false⟩
    srate := 48000
    maxblk := 4
    poly := 2
    numCh := 2
    numSamp := 4
    filtA := 0x10C1
    mixActive := 0x40000000
    envParams := ⟨750, 6000, 0x60000000, 12000⟩
    turns := [.render] }

/-- The block with one held note in its first voice. -/
def one : State := play (sounding .attack 7) Voice.zero

/-- The block with a held note in both voices. -/
def both : State := play (sounding .decay 7) { sounding .attack 9 with age := 1 }

/-- The same on the control port's turn. -/
def onControl (s : State) : State := { s with turns := [.control] }

theorem envAt_ok (st : EnvStage) : (envAt st).Ok := by
  cases st <;> exact ⟨by decide, by decide, by decide, by decide⟩

theorem sounding_ok (st : EnvStage) (id : Half) : (sounding st id).Ok where
  env := envAt_ok st
  pressure := Voice.zero_ok.pressure
  timbre := Voice.zero_ok.timbre
  frequency := Voice.zero_ok.frequency

theorem reset_voice (v : Nat) (h : v < 16) : State.reset.voice v = Voice.zero := by
  show (List.replicate 16 Voice.zero)[v]?.getD Voice.zero = _
  rw [List.getElem?_replicate, if_pos h]
  rfl

theorem play_voice (x y : Voice) (v : Nat) (h : v < 16) :
    (play x y).voice v = if v = 0 then x else if v = 1 then y else Voice.zero := by
  show ((State.reset.setVoice 0 x).setVoice 1 y).voice v = _
  have hn : State.reset.voices.length = 16 := rfl
  rw [voice_setVoice, voice_setVoice, reset_voice v h, setVoice_slots_length, hn]
  by_cases h0 : v = 0
  · subst h0; simp
  · by_cases h1 : v = 1
    · subst h1; simp
    · rw [if_neg (fun e => h1 e.1.symm), if_neg (fun e => h0 e.1.symm), if_neg h0, if_neg h1]

/-- The default build is legal (R5). -/
theorem test_built_legal : Config.built.Legal := Config.built_legal

theorem play_slots (x y : Voice) : (play x y).voices.length = 16 :=
  show ((State.reset.setVoice 0 x).setVoice 1 y).voices.length = 16 by
    rw [setVoice_slots_length, setVoice_slots_length]; rfl

theorem play_inv {x y : Voice} (hx : x.Ok) (hy : y.Ok) : (play x y).Inv where
  legal := test_built_legal
  slots := play_slots x y
  out := ⟨List.Pairwise.nil, fun _ h => absurd h List.not_mem_nil⟩
  evq := Nat.zero_le _
  poly := show 2 ≤ 16 by decide
  maxblk := show 4 ≤ 4096 by decide
  numCh := show 2 ≤ 2 by decide
  numSamp := show 4 ≤ 4 by decide
  prepared := fun _ => show (48000 : Word) ≠ 0 ∧ (2 : Word) ≠ 0 ∧ (4 : Word) ≠ 0 by decide
  halted := show false = true ↔ (0 : Octet) ≠ 0 by decide
  cause := Nat.zero_le _
  noFault := fun _ => rfl
  phase := fun h => absurd rfl h
  body := fun _ h => by cases h
  finish := fun _ h => by cases h
  rendered := fun _ => rfl
  sus := show (0x60000000 : Word).toNat ≤ one31 by decide
  mixActive := show (0x40000000 : Word).toNat ≤ one31 by decide
  filtA := show (0x10C1 : Half).toNat ≤ one15 by decide
  amp := show (0x1000 : Half).toNat ≤ one15 by decide
  voices := fun v h => by
    rw [play_voice x y v (by rwa [play_slots] at h)]
    split
    · exact hx
    · split
      · exact hy
      · exact Voice.zero_ok
  unused := fun v h hp => by
    have h2 : 2 ≤ v := hp
    rw [play_voice x y v (by rwa [play_slots] at h), if_neg (by omega), if_neg (by omega)]
    rfl
  cutoff := Voice.zero_ok.pressure
  mix := Voice.zero_ok.pressure
  decayRamp := Voice.zero_ok.pressure

theorem one_inv : one.Inv := play_inv (sounding_ok .attack 7) Voice.zero_ok

theorem both_inv : both.Inv :=
  play_inv (sounding_ok .decay 7) (have h := sounding_ok .attack 9; ⟨h.1, h.2, h.3, h.4⟩)

/-- No slot holds an identifier that no slot in use holds. -/
theorem holds_of_lt {s : State} {id : Half} {n : Nat} (hp : s.poly.toNat ≤ n)
    (h : ∀ w, w < n → s.holds w id = false) (w : Nat) : s.holds w id = false := by
  by_cases hw : w < n
  · exact h w hw
  · have : ¬ w < s.poly.toNat := by omega
    simp [State.holds, this]

theorem witness_DecodeSelectsRow :
    decode ⟨0x30010100, 5, 6, 7⟩ = some (.wtRead 1 256) ∧
    (∃ i, decode ⟨0x21000063, 1, 2, 3⟩ = some i ∧ i.ports = [.control, .render]) := by decide

theorem witness_StepRunsDecodedCommand :
    decode ⟨0x10000005, 1, 0, 0⟩ = some (.setglobal 5 1) ∧
    (∃ s : State, s.turns = [.render] ∧ s.phase = .idle ∧ s.renderIn = [⟨0x10000005, 1, 0, 0⟩]) ∧
    ∃ s : State, s.turns = [.control] ∧ s.controlIn = [⟨0x10000005, 1, 0, 0⟩] :=
  ⟨by decide, ⟨{ one with renderIn := [⟨0x10000005, 1, 0, 0⟩] }, rfl, rfl, rfl⟩,
    { onControl one with controlIn := [⟨0x10000005, 1, 0, 0⟩] }, rfl, rfl⟩

theorem witness_IllegalWords :
    decode ⟨0x05000000, 0, 0, 0⟩ = none ∧
    (∃ s : State, s.turns = [.render] ∧ s.phase = .idle ∧ s.renderIn = [⟨0x05000000, 0, 0, 0⟩]) ∧
    ∃ s : State, s.turns = [.control] ∧ s.controlIn = [⟨0x05000000, 0, 0, 0⟩] :=
  ⟨by decide, ⟨{ one with renderIn := [⟨0x05000000, 0, 0, 0⟩] }, rfl, rfl, rfl⟩,
    { onControl one with controlIn := [⟨0x05000000, 0, 0, 0⟩] }, rfl, rfl⟩

theorem witness_ResetStep : ∃ s : State, s.turns = [.reset, .render] :=
  ⟨{ one with turns := [.reset, .render] }, rfl⟩

theorem witness_FaultEntryIsExact :
    one.status.halted = false ∧
    ∃ t, exec (.vRelease 2) one = .next t ∧ t.status.halted = true :=
  ⟨rfl, _, rfl, rfl⟩

theorem witness_UnpreparedFaults :
    State.reset.accepting ∧ State.reset.status.prepared = false ∧
    (encode (.oscNext 5 7)).opcode ∉ [0x00#8, 0x01#8, 0x03#8, 0x04#8, 0x10#8, 0x30#8] := by decide

theorem witness_HaltedIgnoresCommands :
    (one.faulted 7 0).port = .render ∧ (one.faulted 7 0).status.halted = true ∧
    (encode .nop).opcode ≠ 0x04#8 ∧ (encode (.rdreg 0 2)).opcode = 0x04#8 := by decide

theorem witness_ControlPortIgnoresHalt :
    (onControl one).port = .control ∧ ∃ t, exec (.setglobal 6 1) (onControl one) = .next t :=
  ⟨rfl, _, rfl⟩

theorem witness_PortRightsDeny :
    (onControl one).port = .control ∧
    (encode (.render 2 4)).opcode ∉ [0x10#8, 0x20#8, 0x21#8, 0x22#8, 0x23#8, 0x24#8] ∧
    one.accepting := by decide

theorem witness_OnlyResetLeavesHalt :
    ∃ s : State, s.status.halted = true ∧ (∃ t, step s = .next t) ∧
      s.turns.head? ≠ some .reset ∧
      ∃ r : State, r.status.halted = true ∧ (∃ t, step r = .next t) ∧ r.turns.head? = some .reset :=
  ⟨one.faulted 7 0, rfl, ⟨_, rfl⟩, by decide, { one.faulted 7 0 with turns := [.reset] }, rfl,
    ⟨_, rfl⟩, rfl⟩

theorem witness_SingleWriter :
    (∃ t, step (onControl one) = .next t) ∧ (onControl one).turns = [.control] ∧
    (∃ t, step one = .next t) ∧ one.turns = [.render] := ⟨⟨_, rfl⟩, rfl, ⟨_, rfl⟩, rfl⟩

theorem witness_NopDoesNothing : one.accepting := by decide

/-- The five clauses, at their bounds: `poly` 0 and 17, `mb` 0 and 4097, then 16 and 4096. -/
theorem witness_PrepareConfigures :
    State.reset.accepting ∧ (48000 : Word) ≠ 0 ∧ State.reset.build.maxPoly < (17 : Word).toNat ∧
    (16 : Word) ≠ 0 ∧ (16 : Word).toNat ≤ State.reset.build.maxPoly ∧
    State.reset.build.maxBlock < (4097 : Word).toNat ∧
    (4096 : Word) ≠ 0 ∧ (4096 : Word).toNat ≤ State.reset.build.maxBlock := by decide

/-- Both clauses at their bounds: channels 2 and 3, samples `MAXBLK` and `MAXBLK` + 1. -/
theorem witness_RenderBegins :
    one.ready ∧ one.build.maxCh < (3 : Word).toNat ∧ one.maxblk.toNat < (5 : Word).toNat ∧
    (2 : Word).toNat ≤ one.build.maxCh ∧ (4 : Word).toNat ≤ one.maxblk.toNat := by decide

theorem witness_RenderBodyAndEndSteps :
    ∃ s u : State, s.turns = [.render] ∧ s.phase = .body 4 ∧ s.poly.toNat ≤ s.voices.length ∧
      u.turns = [.render] ∧ u.phase = .finish 4 :=
  ⟨{ one with phase := .body 4 }, { one with phase := .finish 4 }, rfl, rfl, by decide, rfl, rfl⟩

theorem witness_EditBetweenBodyAndEnd :
    ∃ s : State, s.phase = .body 4 ∧ s.turns = [.render, .control, .render] ∧
      s.controlIn = [⟨0x10000006, 5, 0, 0⟩] ∧
      decode ⟨0x10000006, 5, 0, 0⟩ = some (.setglobal 6 5) ∧ (6 : Half).toNat ≤ 6 :=
  ⟨{ one with
      phase := .body 4
      turns := [.render, .control, .render]
      controlIn := [⟨0x10000006, 5, 0, 0⟩] }, rfl, rfl, rfl, by decide, by decide⟩

/-- Indices 0 to 3 and, at the bound, 4. -/
theorem witness_WrcfgWrites : one.accepting ∧ 3 < (4 : Half).toNat ∧ (3 : Half).toNat = 3 := by decide

theorem witness_RdregReads : one.port = .render ∧ (15 : Octet).toNat < 16 := by decide

/-- A gap of the map, a select on a global number, a voice number past its range, voice 16. -/
theorem witness_RdregBadNumbers :
    one.port = .render ∧
    (0x000C#16).toNat ∉ List.range' 0x0000 12 ++ List.range' 0x0010 3 ++ List.range' 0x0020 7 ++
      List.range' 0x0030 7 ++ List.range' 0x0040 24 ∧ (0x000C#16).toNat < 0x0100 ∧
    (1 : Octet) ≠ 0 ∧ (0x00FF#16).toNat < 0x0100 ∧
    0x0100 ≤ (0x0103#16).toNat ∧
    (0x0103#16).toNat ∉ List.range' 0x0100 3 ++ List.range' 0x0110 4 ++ List.range' 0x0120 4 ++
      [0x0130] ++ List.range' 0x0140 24 ∧
    one.build.maxPoly ≤ (16 : Octet).toNat ∧ 0x0100 ≤ (0x0100#16).toNat := by decide

theorem witness_SetglobalWritesOneWord :
    (onControl one).port = .control ∧ (6 : Half).toNat ≤ 6 ∧ 6 < (7 : Half).toNat ∧
    one.accepting := by decide

/-- A queue of 63 and one of 64, and the render port. -/
theorem witness_EventsArePushedOrDispatched :
    ∃ s u : State, s.port = .control ∧ s.evq.length = 63 ∧ u.port = .control ∧ u.evq.length = 64 ∧
      s.build.evqDepth = 64 ∧ u.build.evqDepth = 64 ∧ one.ready :=
  ⟨{ onControl one with evq := List.replicate 63 ⟨.noteOn, 1, 2, 3, 4⟩ },
    { onControl one with evq := List.replicate 64 ⟨.noteOn, 1, 2, 3, 4⟩ }, rfl, rfl, rfl, rfl, rfl,
    rfl, by decide⟩

/-- The holder is the last slot in use; a Free slot above a busy one; every slot busy with stealing off,
and on with either policy. -/
theorem witness_NoteOnAllocates :
    (both.ready ∧ both.Inv ∧ both.holds 1 9 = true ∧ ∀ w, w < 1 → both.holds w 9 = false) ∧
    (one.ready ∧ one.Inv ∧ (∀ w, one.holds w 9 = false) ∧ 1 < one.poly.toNat ∧
      (one.voice 1).vstate = .free ∧ ∀ w, w < 1 → (one.voice w).vstate ≠ .free) ∧
    (∀ w, both.holds w 5 = false) ∧ (∀ w, w < both.poly.toNat → (both.voice w).vstate ≠ .free) ∧
    both.cfgCtrl.getLsbD 0 = false ∧
    (∃ s : State, s.ready ∧ s.Inv ∧ (∀ w, s.holds w 5 = false) ∧
      (∀ w, w < s.poly.toNat → (s.voice w).vstate ≠ .free) ∧ s.cfgCtrl.getLsbD 0 = true ∧
      s.cfgCtrl.getLsbD 1 = false ∧ (s.voice 0).age.toNat < (s.voice 1).age.toNat) ∧
    ∃ s : State, s.ready ∧ s.Inv ∧ (∀ w, s.holds w 5 = false) ∧
      (∀ w, w < s.poly.toNat → (s.voice w).vstate ≠ .free) ∧ s.cfgCtrl.getLsbD 0 = true ∧
      s.cfgCtrl.getLsbD 1 = true ∧ (s.voice 0).env.level.toNat ≤ (s.voice 1).env.level.toNat :=
  ⟨⟨by decide, both_inv, by decide +kernel, by decide +kernel⟩,
    ⟨by decide, one_inv, holds_of_lt (n := 2) (by decide) (by decide +kernel), by decide,
      by decide +kernel, by decide +kernel⟩,
    holds_of_lt (n := 2) (by decide) (by decide +kernel), by decide +kernel, by decide,
    ⟨{ both with cfgCtrl := 5 }, by decide, { both_inv with },
      holds_of_lt (n := 2) (by decide) (by decide +kernel), by decide +kernel, by decide, by decide,
      by decide +kernel⟩,
    ⟨{ both with cfgCtrl := 7 }, by decide, { both_inv with },
      holds_of_lt (n := 2) (by decide) (by decide +kernel), by decide +kernel, by decide, by decide,
      by decide +kernel⟩⟩

theorem witness_OtherEventsReachTheHolder :
    both.ready ∧ both.poly.toNat ≤ both.voices.length ∧
    (both.holds 1 9 = true ∧ ∀ w, w < 1 → both.holds w 9 = false) ∧ ∀ w, both.holds w 5 = false :=
  ⟨by decide, by decide, by decide +kernel, holds_of_lt (n := 2) (by decide) (by decide +kernel)⟩

theorem witness_WtReadAnswersSample :
    State.reset.accepting ∧ State.reset.build.Legal ∧ 2 < (3 : Octet).toNat ∧
    2 ^ State.reset.build.tableLog2 < (257 : Half).toNat ∧
    (2 : Octet).toNat ≤ 2 ∧ (256 : Half).toNat ≤ 2 ^ State.reset.build.tableLog2 ∧
    State.reset.build.tableLog2 = 8 ∧ State.reset.build.sineAmp = 32767 ∧
    255 < 2 ^ State.reset.build.tableLog2 :=
  ⟨by decide, test_built_legal, by decide, by decide, by decide, by decide, rfl, rfl, by decide⟩

/-- The voice and oscillator clauses of the three oscillator commands: `POLY` − 1 and `POLY`, 1 and 2. -/
theorem witness_OscSetfreqSetsIncrement :
    one.ready ∧ one.poly.toNat ≤ one.voices.length ∧ one.poly.toNat ≤ (2 : Octet).toNat ∧
    1 < (2 : Half).toNat ∧ (1 : Octet).toNat < one.poly.toNat ∧ (1 : Half).toNat ≤ 1 ∧
    (48000 : Word) ≠ 0 := by decide

theorem witness_OscNextInterpolates :
    one.ready ∧ one.poly.toNat ≤ one.voices.length ∧ one.build.Legal ∧
    one.poly.toNat ≤ (2 : Octet).toNat ∧ 1 < (2 : Half).toNat ∧ (1 : Octet).toNat < one.poly.toNat ∧
    (1 : Half).toNat ≤ 1 :=
  ⟨by decide, by decide, test_built_legal, by decide, by decide, by decide, by decide⟩

theorem witness_OscResetClearsPhase :
    one.ready ∧ one.poly.toNat ≤ one.voices.length ∧ one.poly.toNat ≤ (2 : Octet).toNat ∧
    1 < (2 : Half).toNat ∧ (1 : Octet).toNat < one.poly.toNat ∧ (0 : Half).toNat ≤ 1 := by decide

theorem witness_EnvLoadpSnapshots : one.ready := by decide

theorem witness_EnvGates :
    one.ready ∧ one.poly.toNat ≤ one.voices.length ∧ one.poly.toNat ≤ (2 : Octet).toNat ∧
    (1 : Octet).toNat < one.poly.toNat := by decide

/-- Every stage, at the last slot in use. -/
theorem witness_EnvNextAdvances :
    one.ready ∧ one.Inv ∧ one.poly.toNat ≤ (2 : Octet).toNat ∧
    ∀ st, ∃ s : State, s.ready ∧ s.Inv ∧ (1 : Octet).toNat < s.poly.toNat ∧
      (s.voice 1).env.stage = st :=
  ⟨by decide, one_inv, by decide, fun st => ⟨play Voice.zero (sounding st 7),
    by cases st <;> decide, play_inv Voice.zero_ok (sounding_ok st 7), by cases st <;> decide,
    by cases st <;> decide +kernel⟩⟩

theorem witness_EnvMonotoneInStage :
    ∀ st, ∃ s : State, s.ready ∧ s.Inv ∧ (1 : Octet).toNat < s.poly.toNat ∧
      (s.voice 1).env.stage = st ∧ ∃ t, exec (.envNext 1) s = .next t :=
  fun st => ⟨play Voice.zero (sounding st 7), by cases st <;> decide,
    play_inv Voice.zero_ok (sounding_ok st 7), by cases st <;> decide,
    by cases st <;> decide +kernel, _, rfl⟩

theorem witness_ReleaseLastsRlenCalls :
    (sounding .sustain 7).env.Ok ∧ 0 < (sounding .sustain 7).env.level.toNat ∧
    (0 : Nat) < max 1 (0 : Word).toNat :=
  ⟨(sounding_ok .sustain 7).env, by decide, by decide⟩

/-- The refused selects, then each of the six. -/
theorem witness_RampSelectionAndGetcur :
    one.ready ∧ 5 < (6 : Half).toNat ∧ one.poly.toNat ≤ (2 : Octet).toNat ∧
    (3 ≤ (3 : Half).toNat ∧ (1 : Octet) ≠ 0) ∧ (1 : Octet).toNat < one.poly.toNat := by decide

theorem witness_RmpResetSnaps :
    one.ready ∧ one.poly.toNat ≤ one.voices.length ∧ one.selectRamp 1 2 = some (.frequency 1) ∧
    one.selectRamp 0 5 = some .decayRamp ∧ one.selectRamp 0 6 = none ∧ (48000 : Word) ≠ 0 := by decide

/-- The block with `GR[0]` at `q`. -/
def glide (q : Ramp) : State := { one with grCutoff := q }

/-- A falling linear ramp with `cnt` ticks left. -/
def falling (cnt : Word) : Ramp := ⟨10, 0, 0x1FFFFFFFE, cnt, 4, 0x20000000, .linear⟩

/-- An exponential ramp at `cur`, on its way to 10. -/
def settling (cur : Word) : Ramp := ⟨cur, 10, 0, 0, 4, 0x20000000, .exponential⟩

theorem falling_ok : (falling 0).Ok ∧ (falling 1).Ok ∧ (falling 4).Ok :=
  ⟨⟨by decide, by decide, by decide⟩, ⟨by decide, by decide, by decide⟩,
    ⟨by decide, by decide, by decide⟩⟩

theorem settling_ok (cur : Word) : (settling cur).Ok :=
  ⟨show 0 < (0x20000000 : Word).toNat by decide, show (0x20000000 : Word).toNat ≤ one31 by decide,
    fun h => by cases h⟩

/-- An instant ramp, a linear one on the same and on another target, an exponential one. -/
theorem witness_RmpSettargetRetargets :
    one.ready ∧ one.poly.toNat ≤ one.voices.length ∧ one.selectRamp 2 0 = none ∧
    one.selectRamp 0 3 = some .cutoff ∧ (one.ramp .cutoff).steps = 0 ∧
    ((glide (falling 4)).ramp .cutoff).steps ≠ 0 ∧
    ((glide (falling 4)).ramp .cutoff).mode = .linear ∧
    (0 : Word) = ((glide (falling 4)).ramp .cutoff).tgt ∧
    (5 : Word) ≠ ((glide (falling 4)).ramp .cutoff).tgt ∧
    ((glide (settling 0)).ramp .cutoff).steps ≠ 0 ∧
    ((glide (settling 0)).ramp .cutoff).mode = .exponential := by decide

/-- A linear ramp with no tick left, with the last one, with more; an exponential one at its target, below
it and above it. -/
theorem witness_RmpNextTicks :
    (glide (falling 0)).ready ∧ (glide (falling 0)).Inv ∧ (glide (falling 1)).Inv ∧
    (glide (falling 4)).Inv ∧ (glide (settling 10)).Inv ∧ (glide (settling 0)).Inv ∧
    (glide (settling 30)).Inv ∧ (glide (falling 0)).selectRamp 0 3 = some .cutoff ∧
    (glide (falling 0)).selectRamp 1 3 = none :=
  ⟨by decide, { one_inv with cutoff := falling_ok.1 }, { one_inv with cutoff := falling_ok.2.1 },
    { one_inv with cutoff := falling_ok.2.2 }, { one_inv with cutoff := settling_ok 10 },
    { one_inv with cutoff := settling_ok 0 }, { one_inv with cutoff := settling_ok 30 }, by decide,
    by decide⟩

theorem witness_RampNeverOvershoots :
    (falling 4).Ok ∧ (settling 30).Ok ∧ (falling 4).steps ≠ 0 :=
  ⟨falling_ok.2.2, settling_ok 30, by decide⟩

theorem witness_LinearRampArrives :
    (falling 4).mode = .linear ∧ (falling 4).steps ≠ 0 ∧ (5 : Word) ≠ (falling 4).tgt ∧
    3 < (falling 4).steps.toNat ∧ (falling 4).steps.toNat ≤ 4 := by decide

theorem witness_ExponentialRampArrives :
    (settling 0).mode = .exponential ∧ (settling 0).Ok := ⟨rfl, settling_ok 0⟩

theorem witness_FltCoefComputes : one.ready ∧ (48000 : Word) ≠ 0 := by decide

theorem witness_FltNextFilters :
    one.ready ∧ one.Inv ∧ one.poly.toNat ≤ (2 : Octet).toNat ∧ (1 : Octet).toNat < one.poly.toNat :=
  ⟨by decide, one_inv, by decide, by decide⟩

theorem witness_FltClearZeroes :
    one.ready ∧ one.poly.toNat ≤ one.voices.length ∧ one.poly.toNat ≤ (2 : Octet).toNat ∧
    (1 : Octet).toNat < one.poly.toNat := by decide

theorem witness_VAssignGivesNote :
    one.ready ∧ one.poly.toNat ≤ one.voices.length ∧ one.poly.toNat ≤ (2 : Octet).toNat ∧
    (1 : Octet).toNat < one.poly.toNat := by decide

/-- A held voice and a Free one. -/
theorem witness_VoiceUpdatesRetarget :
    one.ready ∧ one.poly.toNat ≤ one.voices.length ∧ one.poly.toNat ≤ (2 : Octet).toNat ∧
    (one.voice (1 : Octet).toNat).vstate = .free ∧ (one.voice (0 : Octet).toNat).vstate ≠ .free ∧
    (1 : Octet).toNat < one.poly.toNat := by decide +kernel

theorem witness_VReleaseReleases :
    one.ready ∧ one.poly.toNat ≤ one.voices.length ∧ one.poly.toNat ≤ (2 : Octet).toNat ∧
    (one.voice (1 : Octet).toNat).vstate ≠ .assigned ∧
    (one.voice (0 : Octet).toNat).vstate = .assigned ∧ (1 : Octet).toNat < one.poly.toNat := by
  decide +kernel

/-- A prepared state with a geometry of samples but no channel. -/
def noChannel : State := { one with numCh := 0 }

theorem noChannel_inv : noChannel.Inv := { one_inv with numCh := Nat.zero_le _ }

/-- The last sample of the geometry, one past it, no sample at all, a run in two parts, and no channel. -/
theorem witness_VRenderRunsSamples :
    one.ready ∧ one.Inv ∧ one.poly.toNat ≤ (2 : Octet).toNat ∧
    one.numSamp.toNat < (3 : Word).toNat + (2 : Word).toNat ∧ (0 : Octet).toNat < one.poly.toNat ∧
    (3 : Word).toNat + (1 : Word).toNat ≤ one.numSamp.toNat ∧
    (4 : Word).toNat + (0 : Word).toNat ≤ one.numSamp.toNat ∧
    (1 : Word).toNat + (2 : Word).toNat = (3 : Word).toNat ∧
    noChannel.ready ∧ noChannel.Inv ∧ (3 : Word).toNat + (1 : Word).toNat ≤ noChannel.numSamp.toNat :=
  ⟨by decide, one_inv, by decide, by decide, by decide, by decide, by decide, by decide, by decide,
    noChannel_inv, by decide⟩

theorem witness_VSampleDatapath :
    both.ready ∧ both.Inv ∧ (1 : Octet).toNat < both.poly.toNat ∧
    (3 : Word).toNat < both.numSamp.toNat ∧ (both.voice (1 : Octet).toNat).env.stage ≠ .idle :=
  ⟨by decide, both_inv, by decide, by decide, by decide +kernel⟩

theorem witness_IdleVoiceIsSilent :
    one.ready ∧ one.poly.toNat ≤ one.voices.length ∧ (1 : Octet).toNat < one.poly.toNat ∧
    (3 : Word).toNat + (1 : Word).toNat ≤ one.numSamp.toNat ∧ (1 : Word) ≠ 0 ∧
    (one.voice (1 : Octet).toNat).env.stage = .idle := by decide +kernel

theorem witness_MixClearSetsGeometry :
    one.ready ∧ one.build.maxCh < (3 : Word).toNat ∧ one.maxblk.toNat < (5 : Word).toNat ∧
    (2 : Word).toNat ≤ one.build.maxCh ∧ (4 : Word).toNat ≤ one.maxblk.toNat := by decide

theorem witness_MixAccAdds :
    one.ready ∧ one.Inv ∧ one.numSamp.toNat ≤ (4 : Half).toNat ∧ (3 : Half).toNat < one.numSamp.toNat ∧
    noChannel.ready ∧ noChannel.Inv ∧ (3 : Half).toNat < noChannel.numSamp.toNat :=
  ⟨by decide, one_inv, by decide, by decide, by decide, noChannel_inv, by decide⟩

theorem witness_MixReadsAnswerWords :
    one.ready ∧ one.numCh.toNat ≤ (2 : Octet).toNat ∧ one.numSamp.toNat ≤ (4 : Half).toNat ∧
    (1 : Octet).toNat < one.numCh.toNat ∧ (3 : Half).toNat < one.numSamp.toNat ∧
    { one with rendered := true }.rendered = true ∧ { one with rendered := true }.phase = .idle ∧
    one.rendered = false ∧ { one with phase := .finish 4 }.phase ≠ .idle := by decide

/-- A halted block at a control turn is still heard (R253 (d)). -/
theorem test_audio_halted :
    { (onControl one).faulted 7 0x50FF0000 with rendered := true, out := [(3, 40000)] }.audioRead 0 3 =
      some 32767 := by decide +kernel

/-- The block between the begin and the body step of `RENDER 2, 4`. -/
def begun : State := { both with phase := .body 4 }

theorem begun_inv : begun.Inv :=
  { both_inv with
    phase := by decide
    body := fun _ h => by cases h; rfl
    finish := fun _ h => by cases h }

theorem witness_RenderedWordsAreBounded :
    begun.Inv ∧ begun.turns = [.render] ∧ begun.phase = .body 4 ∧
    (∀ c n, c < begun.numCh.toNat → n < begun.numSamp.toNat → readOut begun.build begun.out c n = 0) ∧
    ∃ t, step begun = .next t :=
  ⟨begun_inv, rfl, rfl, fun c n _ _ => by
    have : begun.out = [] := rfl
    simp [this, readOut, bufRead], _, rfl⟩

theorem witness_ResetMeetsInvariants : Config.built.Legal := test_built_legal

theorem witness_InvKeptByEveryStep : begun.Inv ∧ ∃ t, step begun = .next t := ⟨begun_inv, _, rfl⟩

/-- The block with two held notes and a `NOP` presented. -/
def playing : State := { both with renderIn := [⟨0, 0, 0, 0⟩] }

theorem playing_play : playing.PlayInv where
  free := fun v h => by
    show ((play _ _).voice v).vstate = _ → _
    show _ → ((play _ _).voice v).env.stage = _ ∧ ((play _ _).voice v).osc0.phase = _ ∧
      ((play _ _).voice v).filtY = _
    rw [play_voice _ _ v (Nat.lt_of_lt_of_eq h (play_slots _ _))]
    split
    · decide
    · split
      · decide
      · exact fun _ => ⟨rfl, rfl, rfl⟩
  together := fun v h => by
    show ((play _ _).voice v).osc0 = ((play _ _).voice v).osc1
    rw [play_voice _ _ v (Nat.lt_of_lt_of_eq h (play_slots _ _))]
    split
    · rfl
    · split <;> rfl
  oneToOne := by
    intro v w _ _ hv hw hne _ _
    have h1 : v < 2 := hv
    have h2 : w < 2 := hw
    have : (v = 0 ∧ w = 1) ∨ (v = 1 ∧ w = 0) := by omega
    rcases this with ⟨rfl, rfl⟩ | ⟨rfl, rfl⟩ <;> decide +kernel

theorem witness_PlayInvKeptByPlaying :
    playing.Inv ∧ playing.PlayInv ∧ playing.playsNext = true ∧ ∃ t, step playing = .next t :=
  ⟨{ both_inv with }, playing_play, by decide, _, rfl⟩

/-- A body step plays though a direct unit command waits, and so do the control port, which discards one, and
a command that writes `RESULT` only. -/
theorem test_playsNext :
    ({ begun with renderIn := [⟨0x50000000, 0, 0, 0⟩] }.playsNext &&
      { both with turns := [.control], controlIn := [⟨0x50000000, 0, 0, 0⟩] }.playsNext &&
      { both with renderIn := [⟨0x53000000, 0, 0, 0⟩] }.playsNext &&
      !{ both with renderIn := [⟨0x50000000, 0, 0, 0⟩] }.playsNext) = true := by decide

/-! ### Builds and runs (R5, R283) -/

/-- The block halted by `F_BAD_INDEX`. -/
def dead : State := both.faulted 7 0x50FF0000

theorem dead_inv : dead.Inv :=
  { both_inv with
    halted := by decide
    cause := by decide
    noFault := fun h => by cases h
    phase := fun h => absurd rfl h }

/-- `one` with the command `w` presented on the render port. -/
def given (w : Command) : State := { one with renderIn := [w] }

/-- An end step; a command that returns, one that does not, one that faults, a `RDREG`; a body step, a control
turn, an illegal word; a halted block with no reset to come. -/
theorem witness_RunObservations :
    ({ one with phase := .finish 4 }.turns = [.render] ∧
      { one with phase := .finish 4 }.phase = .finish 4) ∧
    (one.turns = [.render] ∧ one.phase = .idle ∧
      (∀ w ∈ [(⟨0x30000000, 0, 0, 0⟩ : Command), ⟨0, 0, 0, 0⟩, ⟨0x92030000, 0, 0, 0⟩,
        ⟨0x0400000B, 0, 0, 0⟩], (decode w).any (fun i => match exec i (given w) with
          | .next _ => true
          | .fault _ | .refused _ => false) = true) ∧
      (one.readReg 0 0x000B).isSome = true) ∧
    (begun.phase ≠ .idle ∧ (onControl one).turns.head? ≠ some .render ∧
      (given ⟨0x94000000, 0, 0, 0⟩).renderIn.head?.bind decode = none) ∧
    dead.Inv ∧ dead.status.halted = true ∧ Turn.reset ∉ dead.turns :=
  ⟨⟨rfl, rfl⟩, ⟨rfl, rfl, by decide +kernel, by decide +kernel⟩, by decide, dead_inv, rfl,
    by decide⟩

/-- `WT.READ` answers; `NOP` and a `MIX.READ` that faults do not (R283 (ii)). -/
theorem test_responses :
    (observe 1 (given ⟨0x30010000, 0, 0, 0⟩)).responses = [32767] ∧
    (observe 1 (given ⟨0, 0, 0, 0⟩)).responses = [] ∧
    (observe 1 (given ⟨0x92030000, 0, 0, 0⟩)).responses = [] := by decide +kernel

/-- A smaller block (R5): two slots, eight output words, tables of four samples, identifiers of four bits. -/
def small : Config.Build :=
  { tableLog2 := 2, wtAmp := 100, sineAmp := 3, waveA := 2, waveB := 0, maxPoly := 2, maxCh := 1,
    maxBlock := 8, evqDepth := 1, noteIdW := 4, sine := [0, 3, 0, -3] }

theorem test_small_legal : small.Legal :=
  ⟨by decide, by decide, by decide, by decide, by decide, by decide, by decide, by decide, by decide,
    by decide, rfl, fun k hk => by
      have hp : ∀ x : ℝ, 2 * Real.pi * x / 4 = x * (Real.pi / 2) := fun x => by ring
      have h3 : Real.sin (3 * (Real.pi / 2)) = -1 := by
        rw [show 3 * (Real.pi / 2) = Real.pi / 2 + Real.pi by ring, Real.sin_add_pi, Real.sin_pi_div_two]
      have h1 : 2 * Real.pi / 4 = Real.pi / 2 := by ring
      have h2 : 2 * (Real.pi / 2) = Real.pi := by ring
      have : k = 0 ∨ k = 1 ∨ k = 2 ∨ k = 3 := by have : k < 4 := hk; omega
      rcases this with rfl | rfl | rfl | rfl <;> norm_num [small, Config.Nearest, hp, h1, h2, h3]⟩

/-- It refuses a third voice and a second channel, keeps four bits of an identifier, and holds one event. -/
theorem test_small_build :
    let run := fun r c ts => (observeRun small r c ts).final
    let up : Command := ⟨0x01000000, 48000, 8, 2⟩
    (run [⟨0x01000000, 48000, 8, 3⟩] [] [.render]).faultCause = 4 ∧
    (run [up, ⟨0x90000000, 2, 8, 0⟩] [] [.render, .render]).faultCause = 6 ∧
    ((run [up, ⟨0x80010027, 0, 0, 0⟩] [] [.render, .render]).voice 1).noteId = 7 ∧
    (run [⟨0x30000003, 0, 0, 0⟩] [] [.render]).result = 50 ∧
    (run [] [⟨0x21000001, 0, 0, 0⟩, ⟨0x21000001, 0, 0, 0⟩] [.control, .control]).status.evqOvf =
      true := by decide +kernel

/-- A run of `PREPARE`, `MIX.CLEAR` and `MIX.ACC`: words in the geometry, but no `RENDER` has completed, so the
sink has nothing to read (R75). -/
theorem test_audio_before_render :
    let o := observeRun Config.built [⟨0x01000000, 48000, 4, 1⟩, ⟨0x90000000, 1, 1, 0⟩, ⟨0x91000000, 5, 0, 0⟩] []
      [.render, .render, .render]
    readOut o.final.build o.final.out 0 0 = 5 ∧ o.final.audioRead 0 0 = none := by decide +kernel

/-- A run of `PREPARE` and `RENDER 1, 1`: one silent block, which the sink reads (R283 (i)). -/
theorem test_run_delivers_block :
    let o := observeRun Config.built [⟨0x01000000, 48000, 4, 1⟩, ⟨0x02000000, 1, 1, 0⟩] []
      [.render, .render, .render, .render]
    o.blocks = [[[0]]] ∧ o.heard = [[[0]]] ∧ o.responses = [] ∧ o.final.audioRead 0 0 = some 0 := by
  decide +kernel

/-- With no channel `MIX.ACC` completes and adds nothing (R197; log 17). -/
theorem test_mixAcc_no_channel :
    exec (.mixAcc 3 1) noChannel = .next noChannel := by rfl

/-- With no channel `V.RENDER` of a sounding voice advances it, writes nothing and does not fault (R187, R188 (c);
log 17). -/
theorem test_vRender_no_channel :
    (match exec (.vRender 0 3 1) noChannel with
      | .next t => (t.voice 0).env.progress != (noChannel.voice 0).env.progress && t.out == noChannel.out &&
          !t.status.halted
      | _ => false) = true := by decide +kernel

end Sys2Proof.Machine.Tests
end

/-! PROOFS of the family 00_scope.md: the reset values (R36), both invariants at reset (R37), the totality of
`exec` and `step` with the build kept (R5, R295). -/

namespace Sys2Proof.Machine

/-! ### The state after reset (10_state.md R36) -/

/-- A slot that is built and one that is not both read as a slot after reset (log 4). -/
@[simp] theorem resetOf_voice (b : Config.Build) (v : Nat) : (State.resetOf b).voice v = Voice.zero := by
  simp only [State.voice, State.resetOf, List.getElem?_replicate]
  split <;> rfl

@[simp] theorem resetOf_voices_length (b : Config.Build) : (State.resetOf b).voices.length = b.maxPoly :=
  List.length_replicate

/-- An empty buffer reads as zero, inside what is built and outside it (log 14). -/
@[simp] theorem readOut_nil (b : Config.Build) (c n : Nat) : readOut b [] c n = 0 := by
  unfold readOut
  split <;> rfl

theorem outBuf_nil_wf (b : Config.Build) : OutBuf.wf b [] :=
  ⟨List.Pairwise.nil, fun _ h => absurd h List.not_mem_nil⟩

/-- A ramp at rest with coefficient 1.0 is well kept. -/
theorem Ramp.zero_ok : Ramp.zero.Ok := Voice.zero_ok.pressure

/-- Settles O8: but for the slots and the buffer, whose size is the build's, every value is written out in
`State.resetOf`. -/
theorem resetValues : Obligations.ResetValues := by
  intro b s r
  have slots : ∀ v, v < b.maxPoly →
      s.voice v = ⟨.free, 0, 0, ⟨0, 0⟩, ⟨0, 0⟩, ⟨.idle, 0, 0, 0⟩, 0, r, r, r⟩ :=
    fun v _ => resetOf_voice b v
  have buffer : ∀ c n, readOut s.build s.out c n = 0 := readOut_nil b
  exact ⟨rfl, rfl, rfl, rfl, rfl, rfl, rfl, rfl, rfl, rfl, rfl, rfl, rfl, rfl, rfl, rfl, rfl, rfl, rfl, rfl, rfl,
    rfl, resetOf_voices_length b, slots, rfl, buffer, rfl, rfl, rfl⟩

/-! ### Both invariants at reset (10_state.md R37) -/

/-- Nothing is in use, nothing waits and nothing has faulted, so every bound of `State.Inv` is one on zero. -/
theorem resetOf_inv {b : Config.Build} (hb : b.Legal) : (State.resetOf b).Inv where
  legal := hb
  slots := resetOf_voices_length b
  out := outBuf_nil_wf b
  evq := Nat.zero_le _
  poly := Nat.zero_le _
  maxblk := Nat.zero_le _
  numCh := Nat.zero_le _
  numSamp := Nat.le_refl _
  prepared := fun h => nomatch h
  halted := ⟨(fun h => nomatch h), fun h => absurd rfl h⟩
  cause := Nat.zero_le _
  noFault := fun _ => rfl
  phase := fun h => absurd rfl h
  body := fun _ h => nomatch h
  finish := fun _ h => nomatch h
  rendered := fun h => nomatch h
  sus := Nat.zero_le _
  mixActive := Nat.zero_le _
  filtA := Nat.zero_le _
  amp := show (0x1000 : Half).toNat ≤ one15 by decide
  voices := fun v _ => by rw [resetOf_voice]; exact Voice.zero_ok
  unused := fun v _ _ => by rw [resetOf_voice]; rfl
  cutoff := Ramp.zero_ok
  mix := Ramp.zero_ok
  decayRamp := Ramp.zero_ok

/-- Every slot is Free, and a Free slot after reset is silent with its oscillators together. -/
theorem resetOf_playInv (b : Config.Build) : (State.resetOf b).PlayInv where
  free := fun v _ _ => by rw [resetOf_voice]; exact ⟨rfl, rfl, rfl⟩
  together := fun v _ => by rw [resetOf_voice]; rfl
  oneToOne := fun _ _ _ _ hv => absurd hv (Nat.not_lt_zero _)

/-- Settles O57; the default build is one of the legal ones. -/
theorem resetMeetsInvariants : Obligations.ResetMeetsInvariants :=
  ⟨resetOf_inv Config.built_legal, resetOf_playInv _, fun _ hb => ⟨resetOf_inv hb, resetOf_playInv _⟩⟩

/-! ### No operation writes the build (00_scope.md R5) -/

section Build

variable (s : State)

@[simp] theorem setRamp_build (q : RampRef) (x : Ramp) : (s.setRamp q x).build = s.build := by
  cases q <;> rfl

@[simp] theorem evqPush_build (e : Event) : (s.evqPush e).build = s.build := by
  rcases evqPush_cases s e with ⟨-, h⟩ | ⟨-, h⟩ <;> rw [h]
  exact setEvqOvf_build s

@[simp] theorem renderRun_build (v k n : Nat) : (State.renderRun v k n s).build = s.build :=
  (renderRun_frame v k n s (Nat.le_refl n) (Nat.le_refl (n + k))).build

@[simp] theorem onHolder_build (id : Half) (f : Voice → Voice) : (s.onHolder id f).build = s.build := by
  unfold State.onHolder
  split
  · exact updVoice_build s _ f
  · rfl

@[simp] theorem dispatchNoteOn_build (id : Half) (f p tb : Word) :
    (s.dispatchNoteOn id f p tb).build = s.build := by
  unfold State.dispatchNoteOn
  split
  · exact assignVoice_build s _ id f p tb
  split
  · exact assignVoice_build s _ id f p tb
  split
  · exact assignVoice_build s _ id f p tb
  · exact setNoteDropped_build s

@[simp] theorem dispatch_build (e : Event) : (s.dispatch e).build = s.build := by
  unfold State.dispatch
  cases e.kind with
  | noteOn => exact dispatchNoteOn_build s e.id e.a e.b e.c
  | noteOff | pressure | pitch | timbre => exact onHolder_build s e.id _

@[simp] theorem drain_build : s.drain.build = s.build :=
  List.foldlRecOn (motive := fun t => t.build = s.build) s.evq State.dispatch (evqFlush_build s)
    fun t ht e _ => (dispatch_build t e).trans ht

@[simp] theorem renderBegin_build (nch ns : Word) : (s.renderBegin nch ns).build = s.build :=
  drain_build (s.mixClear nch ns)

@[simp] theorem renderBody_build (ns : Word) : (s.renderBody ns).build = s.build :=
  List.foldlRecOn (motive := fun t => t.build = s.build) s.slots _ (loadEnvParams_build s)
    fun t ht v _ => (renderRun_build t v ns.toNat 0).trans ht

@[simp] theorem renderEnd_build (ns : Word) : (s.renderEnd ns).build = s.build := by
  rw [State.renderEnd, refreshDerived_build, advanceGlobals_build]

@[simp] theorem bodyStep_build (ns : Word) : (s.bodyStep ns).build = s.build :=
  renderBody_build s ns

@[simp] theorem finishStep_build (ns : Word) : (s.finishStep ns).build = s.build :=
  renderEnd_build s ns

@[simp] theorem illegal_build (w0 : Word) : (s.illegal w0).build = s.build := by
  unfold State.illegal State.illegalOnRender
  split
  · split
    · rfl
    · exact raise_build s .illegalCmd w0
  · exact setCtlIllegal_build s

@[simp] theorem retire_build : s.retire.build = s.build := by
  unfold State.retire
  split <;> rfl

end Build

/-! ### Every command has an outcome (70_reset_and_hazards.md R295) -/

/-- The outcome `r` is a next state, of the block that `s` is a state of. -/
def State.Answers (s : State) (r : Host.Outcome State Fault Refusal) : Prop :=
  ∃ t, r = .next t ∧ t.build = s.build

/-- If the effect `e` takes place, it leaves a state of the same block. -/
def State.EffectKeepsBuild (s : State) (e : Effect) : Prop :=
  ∀ t, e = .ok t → t.build = s.build

theorem answers_next {s t : State} (h : t.build = s.build) : s.Answers (.next t) := ⟨t, rfl, h⟩

theorem effectKeepsBuild_ok {s t : State} (h : t.build = s.build) : s.EffectKeepsBuild (.ok t) :=
  fun _ e => by cases e; exact h

theorem effectKeepsBuild_error (s : State) (c : FaultCause) : s.EffectKeepsBuild (.error c) :=
  fun _ e => nomatch e

/-- A check before the effect (R94 steps 4 and 5). -/
theorem effectKeepsBuild_check {s : State} {p : Prop} [Decidable p] {c : FaultCause} {e : Effect}
    (h : s.EffectKeepsBuild e) : s.EffectKeepsBuild (if p then .error c else e) := by
  split
  · exact effectKeepsBuild_error s c
  · exact h

theorem onRender_build {s : State} {e : Effect} (i : Instr) (h : s.EffectKeepsBuild e) :
    (s.onRender i e).build = s.build := by
  rcases onRender_cases i s e with ⟨-, he⟩ | ⟨-, c, he⟩ | ⟨-, -, he⟩
  · rw [he]
  · rw [he, raise_build]
  · exact h _ he

/-- A command of the render port adds only a raise or a discard to its own effect. -/
theorem renderCommand_answers {i : Instr} {s : State} {e : Effect} (h : s.EffectKeepsBuild e) :
    s.Answers (renderCommand i s e) := by
  unfold renderCommand
  split
  · exact answers_next (onRender_build i h)
  · exact answers_next (setCtlIllegal_build s)

theorem eventCommand_answers (e : Event) (s : State) : s.Answers (eventCommand e s) := by
  unfold eventCommand
  split
  · exact answers_next (onRender_build _ (effectKeepsBuild_ok (dispatch_build s e)))
  · exact answers_next (evqPush_build s e)

/-- A command whose one check guards an effect that keeps the build. -/
theorem checked_answers {i : Instr} {s t : State} {p : Prop} [Decidable p] {c : FaultCause}
    (h : t.build = s.build) : s.Answers (renderCommand i s (if p then .error c else .ok t)) :=
  renderCommand_answers (effectKeepsBuild_check (effectKeepsBuild_ok h))

/-- A ramp command: a fault where the selector names no ramp (R161), else an effect on the ramp it names. -/
theorem selected_answers {i : Instr} {s : State} {q : Option RampRef} {c : FaultCause} {e : RampRef → Effect}
    (h : ∀ q, s.EffectKeepsBuild (e q)) : s.Answers (renderCommand i s (match q with
      | none => .error c
      | some q => e q)) :=
  renderCommand_answers <| match q with
    | none => effectKeepsBuild_error s c
    | some q => h q

theorem execWrcfg_answers (i : Half) (x : Word) (s : State) : s.Answers (execWrcfg i x s) := by
  refine renderCommand_answers ?_
  split
  iterate 4 exact effectKeepsBuild_ok rfl
  exact effectKeepsBuild_error s .badIndex

theorem execRdreg_answers (sel : Octet) (reg : Half) (s : State) : s.Answers (execRdreg sel reg s) := by
  unfold execRdreg
  split
  · exact answers_next (setCtlIllegal_build s)
  · exact answers_next (setResult_build s _)
  · exact answers_next (onRender_build _ (effectKeepsBuild_error s .badIndex))

theorem execSetglobal_answers (i : Half) (x : Word) (s : State) : s.Answers (execSetglobal i x s) := by
  unfold execSetglobal State.illegalOnRender
  split
  · refine answers_next ?_
    split
    · rfl
    · exact raise_build s .illegalCmd _
  · refine answers_next ?_
    split
    · exact setCtlIllegal_build s
    · rfl

/-- Every command, by the shape of its meaning: an event, a command with a rule of its own above, or checks
in front of one effect. -/
theorem exec_answers (i : Instr) (s : State) : s.Answers (exec i s) := by
  cases i with
  | evNoteon | evNoteoff | evPressure | evPitch | evTimbre => exact eventCommand_answers _ s
  | wrcfg k x => exact execWrcfg_answers k x s
  | rdreg sel reg => exact execRdreg_answers sel reg s
  | setglobal k x => exact execSetglobal_answers k x s
  | rmpSettarget => exact selected_answers fun q => effectKeepsBuild_ok (setRamp_build s q _)
  | rmpReset =>
    exact selected_answers fun q => effectKeepsBuild_check (effectKeepsBuild_ok (setRamp_build s q _))
  | rmpNext =>
    exact selected_answers fun q => effectKeepsBuild_ok ((setResult_build _ _).trans (setRamp_build s q _))
  | rmpGetcur => exact selected_answers fun q => effectKeepsBuild_ok (setResult_build s _)
  | nop => exact renderCommand_answers (effectKeepsBuild_ok rfl)
  | envLoadp => exact renderCommand_answers (effectKeepsBuild_ok (loadEnvParams_build s))
  | prepare =>
    exact renderCommand_answers
      (effectKeepsBuild_check (effectKeepsBuild_check (effectKeepsBuild_check (effectKeepsBuild_ok rfl))))
  | oscSetfreq =>
    exact renderCommand_answers
      (effectKeepsBuild_check (effectKeepsBuild_check (effectKeepsBuild_ok (updVoice_build s _ _))))
  | vRender v start ns =>
    exact renderCommand_answers
      (effectKeepsBuild_check (effectKeepsBuild_check (effectKeepsBuild_ok (renderRun_build s _ _ _))))
  | render nch ns => exact checked_answers (renderBegin_build s nch ns)
  | fltCoef cutoff fs => exact checked_answers (loadFilterCoef_build s cutoff fs)
  | mixClear nch ns => exact checked_answers (mixClear_build s nch ns)
  | vAssign v id f p tb => exact checked_answers (assignVoice_build s v.toNat id f p tb)
  | wtRead | envIsactive | mixRead | mixReadsat => exact checked_answers (setResult_build s _)
  | mixAcc => exact checked_answers rfl
  | oscReset | envNoteon | envNoteoff | fltClear | vPressure | vPitch | vTimbre | vRelease =>
    exact checked_answers (updVoice_build s _ _)
  | oscNext | envNext | fltNext =>
    exact checked_answers ((setResult_build _ _).trans (updVoice_build s _ _))

/-! ### Every step has an outcome -/

theorem execWord_answers (w : Command) (s : State) : s.Answers (execWord exec w s) := by
  unfold execWord
  split
  · exact exec_answers _ s
  · exact answers_next (illegal_build s w.w0)

/-- Retiring the command and ending the turn stop nothing. -/
theorem finishCommand_answers {s : State} {r : Host.Outcome State Fault Refusal} (h : s.Answers r) :
    s.Answers (finishCommand r) := by
  obtain ⟨t, rfl, ht⟩ := h
  exact answers_next ((endTurn_build t.retire).trans ((retire_build t).trans ht))

theorem step_answers (s : State) : s.Answers (step s) := by
  have noCommand : s.Answers (.next s.endTurn) := answers_next (endTurn_build s)
  have command (w : Command) : s.Answers (finishCommand (execWord exec w s)) :=
    finishCommand_answers (execWord_answers w s)
  unfold step
  split
  · exact answers_next rfl
  · exact answers_next rfl
  · split
    · exact noCommand
    · exact command _
  · split
    · exact answers_next ((endTurn_build _).trans (bodyStep_build s _))
    · exact answers_next ((endTurn_build _).trans (finishStep_build s _))
    · split
      · exact noCommand
      · exact command _

/-- Settles O6: every operation a command or a step is made of keeps the build, and none stops. -/
theorem everyStepHasAnOutcome : Obligations.EveryStepHasAnOutcome := ⟨exec_answers, step_answers⟩

end Sys2Proof.Machine


/-! PROOFS of the family 10_state.md: what every operation of the block keeps of the invariants of R37, and what
`RDREG` answers for every register number (R35, R229). -/

namespace Sys2Proof.Machine

/-! ### What an outcome can leave -/

/-- If `r` is a next state, `P` holds of it. -/
def NextHas (P : State → Prop) (r : Host.Outcome State Fault Refusal) : Prop := ∀ t, r = .next t → P t

/-- If the effect `e` takes place, `P` holds of the state it leaves. -/
def EffectHas (P : State → Prop) (e : Effect) : Prop := ∀ t, e = .ok t → P t

section Outcomes

variable {P : State → Prop} {s t : State} {i : Instr} {e : Effect} {c : FaultCause}

theorem nextHas_next (h : P t) : NextHas P (.next t) := fun _ e => by cases e; exact h

theorem effectHas_ok (h : P t) : EffectHas P (.ok t) := fun _ e => by cases e; exact h

theorem effectHas_error : EffectHas P (.error c) := fun _ e => nomatch e

/-- A check before the effect (R94 steps 4 and 5): the effect takes place only where it passes. -/
theorem effectHas_check {p : Prop} [Decidable p] (h : ¬p → EffectHas P e) :
    EffectHas P (if p then .error c else e) := by
  split
  · exact effectHas_error
  · exact h ‹_›

/-- A ramp selector before the effect (R161). -/
theorem effectHas_select {q : Option RampRef} {f : RampRef → Effect} (h : ∀ q, EffectHas P (f q)) :
    EffectHas P (match q with
      | none => .error c
      | some q => f q) :=
  match q with
  | none => effectHas_error
  | some q => h q

/-- The decode order of the render port adds a raise to what the command itself can leave (R94, R252). -/
theorem onRender_has (hs : P s) (hr : s.status.halted = false → ∀ c w, P (s.raise c w))
    (he : s.status.halted = false → (needsPrepared i = true → s.status.prepared = true) → EffectHas P e) :
    P (s.onRender i e) := by
  rcases onRender_cases i s e with ⟨-, h⟩ | ⟨hh, c, h⟩ | ⟨hh, hp, h⟩
  · rw [h]; exact hs
  · rw [h]; exact hr hh c _
  · exact he hh hp _ h

/-- A render-port command is discarded on the control port (R257) and ordered by R94 on its own. -/
theorem renderCommand_has (hs : P s) (hc : P s.setCtlIllegal) (hr : s.accepting → ∀ c w, P (s.raise c w))
    (he : s.accepting → (needsPrepared i = true → s.status.prepared = true) → EffectHas P e) :
    NextHas P (renderCommand i s e) := by
  unfold renderCommand
  split
  · next hp => exact nextHas_next (onRender_has hs (fun hh => hr ⟨hp, hh⟩) fun hh => he ⟨hp, hh⟩)
  · exact nextHas_next hc

/-- An event command (R228): dispatched on the render port, pushed on the control port. -/
theorem eventCommand_has {ev : Event} (hs : P s) (hq : P (s.evqPush ev)) (hr : s.accepting → ∀ c w, P (s.raise c w))
    (hd : s.ready → P (s.dispatch ev)) : NextHas P (eventCommand ev s) := by
  unfold eventCommand
  split
  · next hp =>
    have hn : needsPrepared ev.toInstr = true := by
      unfold Event.toInstr
      cases ev.kind <;> rfl
    exact nextHas_next (onRender_has hs (fun hh => hr ⟨hp, hh⟩) fun hh hprep =>
      effectHas_ok (hd ⟨⟨hp, hh⟩, hprep hn⟩))
  · exact nextHas_next hq

theorem illegal_has (hs : P s) (hc : P s.setCtlIllegal) (hr : s.accepting → ∀ c w, P (s.raise c w)) (w0 : Word) :
    P (s.illegal w0) := by
  unfold State.illegal State.illegalOnRender
  split
  · next hp =>
    split
    · exact hs
    · next hh => exact hr ⟨hp, Bool.eq_false_iff.2 hh⟩ .illegalCmd w0
  · exact hc

end Outcomes

/-- A voice operand that passes its check names a slot in use (R92). -/
theorem voiceOk_lt {s : State} {v : Octet} (h : ¬(!s.voiceOk v) = true) : v.toNat < s.poly.toNat := by
  simpa [State.voiceOk] using h

/-- A voice operand checked together with an oscillator operand. -/
theorem voiceOk_lt_of_osc {s : State} {v : Octet} {o : Half} (h : ¬(!s.voiceOk v || !oscOk o) = true) :
    v.toNat < s.poly.toNat :=
  voiceOk_lt fun hv => h (by rw [hv, Bool.true_or])

/-! ### What a dispatched event can do (47_events_allocator.md R206 to R210) -/

/-- The operations of the four events that act on the voice holding an identifier (R207 to R210). -/
inductive HolderOp : (Voice → Voice) → Prop where
  | release : HolderOp Voice.release
  | pressure (w : Word) : HolderOp fun x => x.setPressure w
  | pitch (f : Word) : HolderOp fun x => x.setPitch f
  | timbre (w : Word) : HolderOp fun x => x.setTimbre w

theorem HolderOp.ok {f : Voice → Voice} (hf : HolderOp f) {x : Voice} (h : x.Ok) : (f x).Ok := by
  cases hf with
  | release => exact Voice.release_ok h
  | pressure w => exact Voice.setPressure_ok h w
  | pitch g => exact Voice.setPitch_ok h g
  | timbre w => exact Voice.setTimbre_ok h w

/-- A slot that `Find` gives is built and in use (R205). -/
theorem find_lt {s : State} {id : Half} {v : Nat} (h : s.find id = some v) :
    v < s.voices.length ∧ v < s.poly.toNat := by
  obtain ⟨hv, hh, -⟩ := (find_eq_some s id v).1 h
  simp only [State.holds, Bool.and_eq_true, decide_eq_true_eq] at hh
  exact ⟨hv, hh.1.1⟩

/-- All that a dispatched event can do to a block with a voice in use: nothing, drop the note, act on the voice
that holds the identifier, or assign a voice where no other one was found to hold it. -/
theorem dispatch_has {P : State → Prop} {s : State} (hl : 0 < s.voices.length) (hp : s.poly ≠ 0) (hs : P s)
    (hdrop : P s.setNoteDropped)
    (hact : ∀ v f, v < s.voices.length → v < s.poly.toNat → HolderOp f → P (s.updVoice v f))
    (hassign : ∀ v id f p tb, v < s.voices.length → v < s.poly.toNat →
      s.find id = some v ∨ s.find id = none → P (s.assignVoice v id f p tb)) (e : Event) :
    P (s.dispatch e) := by
  have holder : ∀ f, HolderOp f → P (s.onHolder e.id f) := by
    intro f hf
    unfold State.onHolder
    split
    · next v hv => exact hact v f (find_lt hv).1 (find_lt hv).2 hf
    · exact hs
  unfold State.dispatch
  cases e.kind with
  | noteOff => exact holder _ .release
  | pressure => exact holder _ (.pressure e.a)
  | pitch => exact holder _ (.pitch e.a)
  | timbre => exact holder _ (.timbre e.a)
  | noteOn =>
    show P (s.dispatchNoteOn e.id e.a e.b e.c)
    unfold State.dispatchNoteOn
    split
    · next v hv => exact hassign v _ _ _ _ (find_lt hv).1 (find_lt hv).2 (.inl hv)
    · next hnone =>
      split
      · next v hv =>
        obtain ⟨h1, h2, -⟩ := (findFree_eq_some s v).1 hv
        exact hassign v _ _ _ _ h1 h2 (.inr hnone)
      · split
        · obtain ⟨h1, h2, -⟩ := victim_spec s hl hp
          exact hassign _ _ _ _ _ h1 h2 (.inr hnone)
        · exact hdrop

/-! ### The parts of a voice stay well kept (10_state.md R37 (a), (b)) -/

theorem Voice.setOsc_ok {x : Voice} (h : x.Ok) (o : Nat) (q : Osc) : (x.setOsc o q).Ok := by
  unfold Voice.setOsc
  split <;> exact ⟨h.env, h.pressure, h.timbre, h.frequency⟩

theorem Voice.withEnv_ok {x : Voice} (h : x.Ok) {e : Env} (he : e.Ok) : Voice.Ok { x with env := e } :=
  ⟨he, h.pressure, h.timbre, h.frequency⟩

theorem Voice.withFiltY_ok {x : Voice} (h : x.Ok) (y : Word) : Voice.Ok { x with filtY := y } :=
  ⟨h.env, h.pressure, h.timbre, h.frequency⟩

theorem Voice.prepare_ok (x : Voice) (fs time : Word) (mode : RampMode) : (x.prepare fs time mode).Ok :=
  ⟨Voice.zero_ok.env, Ramp.reset_ok _ _ _ _, Ramp.reset_ok _ _ _ _, Ramp.reset_ok _ _ _ _⟩

theorem Voice.sampled_ok {s : State} {x : Voice} (h : x.Ok) (hp : s.envParams.sus.toNat ≤ one31) :
    (x.sampled s).Ok := by
  unfold Voice.sampled
  split
  · exact Voice.clearNote_ok h
  · exact Voice.sounded_ok h hp

/-- A sample makes no Free voice used (R186). -/
theorem Voice.sampled_free {s : State} {x : Voice} (h : x.vstate = .free) : (x.sampled s).vstate = .free := by
  unfold Voice.sampled
  split
  · rfl
  · exact h

/-! ### The invariant of every step (10_state.md R24, R37; 46_mixer.md R200) -/

section Inv

variable {s : State}

theorem inv_voice_ok (h : s.Inv) (v : Nat) : (s.voice v).Ok := voice_ok h.voices v

/-- A slot above `POLY` is Free, built or not (R37 (g); log 4). -/
theorem inv_voice_free (h : s.Inv) {v : Nat} (hv : s.poly.toNat ≤ v) : (s.voice v).vstate = .free := by
  by_cases hb : v < s.voices.length
  · exact h.unused v hb hv
  · rw [State.voice, List.getElem?_eq_none (Nat.not_lt.1 hb)]
    rfl

/-- A prepared block has a voice built and one in use (R5, R24). -/
theorem inv_hasVoice (h : s.Inv) (hp : s.status.prepared = true) : 0 < s.voices.length ∧ s.poly ≠ 0 :=
  ⟨h.slots ▸ h.legal.maxPoly.1, (h.prepared hp).2.1⟩

/-! #### Flags, faults, the response word, the queue, the buffer -/

theorem setCtlIllegal_inv (h : s.Inv) : s.setCtlIllegal.Inv := { h with }

theorem setNoteDropped_inv (h : s.Inv) : s.setNoteDropped.Inv := { h with }

theorem setEvqOvf_inv (h : s.Inv) : s.setEvqOvf.Inv := { h with }

theorem setResult_inv (h : s.Inv) (w : Word) : (s.setResult w).Inv := { h with }

theorem endTurn_inv (h : s.Inv) : s.endTurn.Inv := { h with }

theorem retire_inv (h : s.Inv) : s.retire.Inv := by
  unfold State.retire
  split <;> exact { h with }

/-- A fault halts a block with no `RENDER` in progress (60_exceptions.md R252). -/
theorem raise_inv (h : s.Inv) (hi : s.phase = .idle) (c : FaultCause) (w0 : Word) : (s.raise c w0).Inv :=
  { h with
    halted := ⟨fun _ => (code_pos c).1, fun _ => rfl⟩
    cause := (code_pos c).2
    noFault := fun hf => nomatch hf
    phase := fun hne => absurd hi hne }

theorem evqFlush_inv (h : s.Inv) : s.evqFlush.Inv := { h with evq := Nat.zero_le _ }

theorem evqPush_inv (h : s.Inv) (e : Event) : (s.evqPush e).Inv := by
  rcases evqPush_cases s e with ⟨hl, he⟩ | ⟨-, he⟩ <;> rw [he]
  · exact { h with evq := (List.length_append ..).trans_le hl }
  · exact setEvqOvf_inv h

theorem withOut_inv (h : s.Inv) {m : OutBuf} (hm : OutBuf.wf s.build m) : State.Inv { s with out := m } :=
  { h with out := hm }

/-- A new geometry that passes the argument check, with no `RENDER` in progress (R196). -/
theorem mixClear_inv (h : s.Inv) (hi : s.phase = .idle) {nch ns : Word} (ha : ¬(!s.renderArgsOk nch ns) = true) :
    (s.mixClear nch ns).Inv := by
  have ⟨hch, hns⟩ : nch.toNat ≤ s.build.maxCh ∧ ns.toNat ≤ s.maxblk.toNat := by
    simpa [State.renderArgsOk] using ha
  exact { h with
    out := clearOut_wf h.out _ _
    numCh := hch
    numSamp := hns
    body := fun _ e => nomatch hi.symm.trans e
    finish := fun _ e => nomatch hi.symm.trans e }

/-! #### The shared registers -/

theorem loadEnvParams_inv (h : s.Inv) : s.loadEnvParams.Inv :=
  { h with sus := (clamp31_toNat _).trans_le (Nat.min_le_right _ _) }

theorem loadFilterCoef_inv (h : s.Inv) (cutoff fs : Word) : (s.loadFilterCoef cutoff fs).Inv :=
  { h with filtA := filterCoef_le _ _ _ }

theorem refreshDerived_inv (h : s.Inv) : s.refreshDerived.Inv :=
  { loadFilterCoef_inv h s.grCutoff.cur s.srate with
    mixActive := (clamp31_toNat _).trans_le (Nat.min_le_right _ _) }

theorem advanceGlobals_inv (h : s.Inv) (ns : Word) : (s.advanceGlobals ns).Inv :=
  { h with
    cutoff := Ramp.ticks_ok (Ramp.setTarget_ok h.cutoff _) _
    mix := Ramp.ticks_ok (Ramp.setTarget_ok h.mix _) _
    decayRamp := Ramp.ticks_ok (Ramp.setTarget_ok h.decayRamp _) _ }

/-! #### Voice slots and ramps -/

/-- A slot replaced by a well-kept voice, which is Free where the slot is not in use. -/
theorem setVoice_inv (h : s.Inv) {v : Nat} {x : Voice} (hx : x.Ok) (hf : s.poly.toNat ≤ v → x.vstate = .free) :
    (s.setVoice v x).Inv :=
  { h with
    slots := (setVoice_slots_length s v x).trans h.slots
    voices := fun w _ => by
      rw [voice_setVoice]
      split
      · exact hx
      · exact inv_voice_ok h w
    unused := fun w _ hw => by
      rw [voice_setVoice]
      split
      · next hv => exact hf (hv.1 ▸ hw)
      · exact inv_voice_free h hw }

/-- An operation on a slot in use. -/
theorem updVoice_inv (h : s.Inv) {v : Nat} {f : Voice → Voice} (hv : v < s.poly.toNat)
    (hf : (f (s.voice v)).Ok) : (s.updVoice v f).Inv :=
  setVoice_inv h hf fun hn => absurd hv (Nat.not_lt.2 hn)

theorem assignVoice_inv (h : s.Inv) {v : Nat} (hv : v < s.poly.toNat) (id : Half) (f p tb : Word) :
    (s.assignVoice v id f p tb).Inv :=
  { updVoice_inv (f := fun x => x.assign s.assignSeq (s.build.noteId id) f p tb) h hv
      (Voice.assign_ok (inv_voice_ok h v) _ _ _ _ _) with }

theorem inv_ramp_ok (h : s.Inv) (q : RampRef) : (s.ramp q).Ok := by
  cases q with
  | pressure v => exact (inv_voice_ok h v).pressure
  | timbre v => exact (inv_voice_ok h v).timbre
  | frequency v => exact (inv_voice_ok h v).frequency
  | cutoff => exact h.cutoff
  | mix => exact h.mix
  | decayRamp => exact h.decayRamp

theorem setRamp_inv (h : s.Inv) (q : RampRef) {x : Ramp} (hx : x.Ok) : (s.setRamp q x).Inv := by
  cases q with
  | pressure v =>
    have hv := inv_voice_ok h v
    exact setVoice_inv h ⟨hv.env, hx, hv.timbre, hv.frequency⟩ (inv_voice_free h)
  | timbre v =>
    have hv := inv_voice_ok h v
    exact setVoice_inv h ⟨hv.env, hv.pressure, hx, hv.frequency⟩ (inv_voice_free h)
  | frequency v =>
    have hv := inv_voice_ok h v
    exact setVoice_inv h ⟨hv.env, hv.pressure, hv.timbre, hx⟩ (inv_voice_free h)
  | cutoff => exact { h with cutoff := hx }
  | mix => exact { h with mix := hx }
  | decayRamp => exact { h with decayRamp := hx }

/-- One sample of a voice (R186). -/
theorem sampleVoice_inv (h : s.Inv) (v n : Nat) : (s.sampleVoice v n).Inv := by
  have hout : OutBuf.wf s.build (sampledOut s v n) := by
    unfold sampledOut
    split
    · exact h.out
    · exact mixAddAll_wf h.out _ _ _
  rw [sampleVoice_eq]
  exact withOut_inv
    (setVoice_inv h (Voice.sampled_ok (inv_voice_ok h v) h.sus) fun hv => Voice.sampled_free (inv_voice_free h hv))
    hout

theorem renderRun_inv (h : s.Inv) (v k n : Nat) : (State.renderRun v k n s).Inv :=
  renderRun_induct (P := State.Inv) v (fun _ n h => sampleVoice_inv h v n) k n s h

/-! #### PREPARE and the reset input -/

/-- Every built slot is prepared by its own (R221). -/
theorem prepare_voice {v : Nat} (hv : v < s.voices.length) (fs mb poly : Word) :
    (s.prepare fs mb poly).voice v = (s.voice v).prepare fs s.cfgRampT s.rampMode := by
  show (s.voices.map _)[v]?.getD _ = _
  simp [State.voice, hv]

theorem prepare_voices_length (fs mb poly : Word) :
    (s.prepare fs mb poly).voices.length = s.voices.length :=
  List.length_map _

/-- `PREPARE` with arguments that pass its checks, with no `RENDER` in progress (R221). -/
theorem prepare_inv (h : s.Inv) (hi : s.phase = .idle) {fs mb poly : Word} (hfs : ¬fs = 0)
    (hpoly : ¬(poly = 0 ∨ s.build.maxPoly < poly.toNat)) (hmb : ¬(mb = 0 ∨ s.build.maxBlock < mb.toNat)) :
    (s.prepare fs mb poly).Inv := by
  obtain ⟨hpoly0, hpolyLe⟩ := not_or.1 hpoly
  obtain ⟨hmb0, hmbLe⟩ := not_or.1 hmb
  have hlen := prepare_voices_length (s := s) fs mb poly
  exact { h with
    slots := hlen.trans h.slots
    evq := Nat.zero_le _
    poly := Nat.not_lt.1 hpolyLe
    maxblk := Nat.not_lt.1 hmbLe
    numCh := Nat.zero_le _
    numSamp := Nat.zero_le _
    prepared := fun _ => ⟨hfs, hpoly0, hmb0⟩
    phase := fun hne => absurd hi hne
    body := fun _ e => nomatch hi.symm.trans e
    finish := fun _ e => nomatch hi.symm.trans e
    rendered := fun _ => rfl
    sus := (clamp31_toNat _).trans_le (Nat.min_le_right _ _)
    mixActive := (clamp31_toNat _).trans_le (Nat.min_le_right _ _)
    filtA := filterCoef_le _ _ _
    voices := fun v hv => by
      rw [prepare_voice (hlen ▸ hv)]
      exact Voice.prepare_ok _ _ _ _
    unused := fun v hv _ => by
      rw [prepare_voice (hlen ▸ hv)]
      rfl
    cutoff := Ramp.reset_ok _ _ _ _
    mix := Ramp.reset_ok _ _ _ _
    decayRamp := Ramp.reset_ok _ _ _ _ }

theorem hardwareReset_inv (h : s.Inv) : s.hardwareReset.Inv := { resetOf_inv h.legal with }

end Inv

/-! ### A RENDER in progress (20_memory.md R74) -/

/-- The block is inside a step of a `RENDER` of `ns` samples: it has the invariant, is prepared and runs, and its
geometry is that of the `RENDER`. -/
structure State.Rendering (s : State) (ns : Word) : Prop where
  inv : s.Inv
  prepared : s.status.prepared = true
  running : s.status.halted = false
  numSamp : s.numSamp = ns

section Rendering

variable {s : State} {ns : Word}

theorem dispatch_rendering (h : s.Rendering ns) (e : Event) : (s.dispatch e).Rendering ns := by
  obtain ⟨hl, hp⟩ := inv_hasVoice h.inv h.prepared
  refine dispatch_has (P := fun t => t.Rendering ns) hl hp h { h with inv := setNoteDropped_inv h.inv } ?_ ?_ e
  · intro v f _ hv hf
    exact { h with inv := updVoice_inv h.inv hv (hf.ok (inv_voice_ok h.inv v)) }
  · intro v id f p tb _ hv _
    exact { h with inv := assignVoice_inv h.inv hv id f p tb }

/-- The begin step up to its events (R223): the geometry is that of the arguments, and the queue is empty. -/
theorem flushed_rendering (h : s.Inv) (hr : s.ready) (hi : s.phase = .idle) {nch : Word}
    (ha : ¬(!s.renderArgsOk nch ns) = true) : (s.mixClear nch ns).evqFlush.Rendering ns :=
  ⟨evqFlush_inv (mixClear_inv h hi ha), hr.2, hr.1.2, rfl⟩

theorem renderBegin_rendering (h : s.Inv) (hr : s.ready) (hi : s.phase = .idle) {nch : Word}
    (ha : ¬(!s.renderArgsOk nch ns) = true) : (s.renderBegin nch ns).Rendering ns :=
  List.foldlRecOn (motive := fun t => t.Rendering ns) s.evq State.dispatch (flushed_rendering h hr hi ha)
    fun _ ht e _ => dispatch_rendering ht e

theorem sampleVoice_rendering (h : s.Rendering ns) (v n : Nat) : (s.sampleVoice v n).Rendering ns where
  inv := sampleVoice_inv h.inv v n
  prepared := by rw [sampleVoice_eq]; exact h.prepared
  running := by rw [sampleVoice_eq]; exact h.running
  numSamp := by rw [sampleVoice_eq]; exact h.numSamp

theorem renderBody_rendering (h : s.Rendering ns) : (s.renderBody ns).Rendering ns :=
  List.foldlRecOn (motive := fun t => t.Rendering ns) s.slots (fun t v => State.renderRun v ns.toNat 0 t)
    { h with inv := loadEnvParams_inv h.inv } fun t ht v _ =>
      renderRun_induct (P := fun t => t.Rendering ns) v (fun _ n hu => sampleVoice_rendering hu v n) ns.toNat 0 t ht

theorem withBody_inv (h : s.Rendering ns) : State.Inv { s with phase := .body ns } :=
  { h.inv with
    phase := fun _ => ⟨h.prepared, h.running⟩
    body := fun _ e => by cases e; exact h.numSamp.symm
    finish := fun _ e => nomatch e }

theorem withFinish_inv (h : s.Rendering ns) : State.Inv { s with phase := .finish ns } :=
  { h.inv with
    phase := fun _ => ⟨h.prepared, h.running⟩
    body := fun _ e => nomatch e
    finish := fun _ e => by cases e; exact h.numSamp.symm }

theorem bodyStep_inv (h : s.Inv) (hb : s.phase = .body ns) : (s.bodyStep ns).Inv := by
  obtain ⟨hp, hh⟩ := h.phase (hb ▸ nofun)
  exact withFinish_inv (renderBody_rendering ⟨h, hp, hh, (h.body ns hb).symm⟩)

theorem finishStep_inv (h : s.Inv) (hf : s.phase = .finish ns) : (s.finishStep ns).Inv := by
  obtain ⟨hp, -⟩ := h.phase (hf ▸ nofun)
  exact { refreshDerived_inv (advanceGlobals_inv h ns) with
    phase := fun hne => absurd rfl hne
    body := fun _ e => nomatch e
    finish := fun _ e => nomatch e
    rendered := fun _ => hp }

end Rendering

/-! ### Every command keeps the invariant -/

/-- The render port takes a command only with no `RENDER` in progress (20_memory.md R71, R74). -/
abbrev State.portFree (s : State) : Prop := s.port = .render → s.phase = .idle

section Commands

variable {s : State}

/-- A render-port command keeps the invariant if its own effect does, where it takes place. -/
theorem renderCommand_inv {i : Instr} {e : Effect} (h : s.Inv) (hi : s.portFree)
    (he : s.accepting → (needsPrepared i = true → s.status.prepared = true) → EffectHas State.Inv e) :
    NextHas State.Inv (renderCommand i s e) :=
  renderCommand_has h (setCtlIllegal_inv h) (fun ha => raise_inv h (hi ha.1)) he

/-- A command with one check in front of its effect. -/
theorem checked_inv {i : Instr} {p : Prop} [Decidable p] {c : FaultCause} {t : State} (h : s.Inv) (hi : s.portFree)
    (ht : ¬p → t.Inv) : NextHas State.Inv (renderCommand i s (if p then .error c else .ok t)) :=
  renderCommand_inv h hi fun _ _ => effectHas_check fun hp => effectHas_ok (ht hp)

/-- A command on a checked voice slot. -/
theorem voiceCommand_inv {i : Instr} {v : Octet} {f : Voice → Voice} (h : s.Inv) (hi : s.portFree)
    (hf : ∀ x, x.Ok → (f x).Ok) :
    NextHas State.Inv (renderCommand i s
      (if !s.voiceOk v then .error .badIndex else .ok (s.updVoice v.toNat f))) :=
  checked_inv h hi fun hv => updVoice_inv h (voiceOk_lt hv) (hf _ (inv_voice_ok h _))

theorem eventCommand_inv (h : s.Inv) (hi : s.portFree) (e : Event) : NextHas State.Inv (eventCommand e s) :=
  eventCommand_has h (evqPush_inv h e) (fun ha => raise_inv h (hi ha.1)) fun hr =>
    (dispatch_rendering ⟨h, hr.2, hr.1.2, rfl⟩ e).inv

theorem execWrcfg_inv (h : s.Inv) (hi : s.portFree) (k : Half) (x : Word) : NextHas State.Inv (execWrcfg k x s) := by
  refine renderCommand_inv h hi fun _ _ => ?_
  split
  · exact effectHas_ok { h with }
  · exact effectHas_ok { h with }
  · exact effectHas_ok { h with amp := clamp15_le x }
  · exact effectHas_ok { h with }
  · exact effectHas_error

theorem execPrepare_inv (h : s.Inv) (hi : s.portFree) (fs mb poly : Word) :
    NextHas State.Inv (execPrepare fs mb poly s) :=
  renderCommand_inv h hi fun ha _ => effectHas_check fun hfs => effectHas_check fun hpoly =>
    effectHas_check fun hmb => effectHas_ok (prepare_inv h (hi ha.1) hfs hpoly hmb)

theorem execRender_inv (h : s.Inv) (hi : s.portFree) (nch ns : Word) :
    NextHas State.Inv (execRender nch ns s) :=
  renderCommand_inv h hi fun ha hp => effectHas_check fun hargs =>
    effectHas_ok (withBody_inv (renderBegin_rendering h ⟨ha, hp rfl⟩ (hi ha.1) hargs))

theorem execRdreg_inv (h : s.Inv) (hi : s.portFree) (sel : Octet) (reg : Half) :
    NextHas State.Inv (execRdreg sel reg s) := by
  unfold execRdreg
  split
  · exact nextHas_next (setCtlIllegal_inv h)
  · exact nextHas_next (setResult_inv h _)
  · next hp _ => exact nextHas_next (onRender_has h (fun _ => raise_inv h (hi hp)) fun _ _ => effectHas_error)

theorem execSetglobal_inv (h : s.Inv) (hi : s.portFree) (k : Half) (x : Word) :
    NextHas State.Inv (execSetglobal k x s) := by
  unfold execSetglobal State.illegalOnRender
  split
  · next hp =>
    refine nextHas_next ?_
    split
    · exact h
    · exact raise_inv h (hi hp) .illegalCmd _
  · refine nextHas_next ?_
    split
    · exact setCtlIllegal_inv h
    · exact { h with }

/-- Every command, direct unit commands among them, by the operation its effect is. -/
theorem exec_inv (h : s.Inv) (hi : s.portFree) (i : Instr) : NextHas State.Inv (exec i s) := by
  cases i with
  | nop => exact renderCommand_inv h hi fun _ _ => effectHas_ok h
  | prepare fs mb poly => exact execPrepare_inv h hi fs mb poly
  | render nch ns => exact execRender_inv h hi nch ns
  | wrcfg k x => exact execWrcfg_inv h hi k x
  | rdreg sel reg => exact execRdreg_inv h hi sel reg
  | setglobal k x => exact execSetglobal_inv h hi k x
  | evNoteon | evNoteoff | evPressure | evPitch | evTimbre => exact eventCommand_inv h hi _
  | wtRead | envIsactive | mixRead | mixReadsat => exact checked_inv h hi fun _ => setResult_inv h _
  | oscSetfreq v o f fs =>
    exact renderCommand_inv h hi fun _ _ => effectHas_check fun hv => effectHas_check fun _ =>
      effectHas_ok (updVoice_inv h (voiceOk_lt_of_osc hv) (Voice.setOsc_ok (inv_voice_ok h _) _ _))
  | oscNext v o =>
    exact checked_inv h hi fun hv =>
      setResult_inv (updVoice_inv (f := fun x => x.setOsc o.toNat _) h (voiceOk_lt_of_osc hv)
        (Voice.setOsc_ok (inv_voice_ok h _) _ _)) _
  | oscReset v o =>
    exact checked_inv h hi fun hv =>
      updVoice_inv h (voiceOk_lt_of_osc hv) (Voice.setOsc_ok (inv_voice_ok h _) _ _)
  | envNoteon v => exact voiceCommand_inv h hi fun _ hx => Voice.withEnv_ok hx (Env.noteOn_ok hx.env)
  | envNoteoff v => exact voiceCommand_inv h hi fun _ hx => Voice.withEnv_ok hx (Env.noteOff_ok hx.env)
  | envNext v =>
    have hx := inv_voice_ok h v.toNat
    exact checked_inv h hi fun hv =>
      setResult_inv (updVoice_inv h (voiceOk_lt hv) (Voice.withEnv_ok hx (Env.next_ok hx.env h.sus))) _
  | envLoadp => exact renderCommand_inv h hi fun _ _ => effectHas_ok (loadEnvParams_inv h)
  | rmpSettarget sel r x =>
    exact renderCommand_inv h hi fun _ _ => effectHas_select fun q =>
      effectHas_ok (setRamp_inv h q (Ramp.setTarget_ok (inv_ramp_ok h q) x))
  | rmpReset sel r fs time =>
    exact renderCommand_inv h hi fun _ _ => effectHas_select fun q => effectHas_check fun _ =>
      effectHas_ok (setRamp_inv h q (Ramp.reset_ok _ _ _ _))
  | rmpNext sel r =>
    exact renderCommand_inv h hi fun _ _ => effectHas_select fun q =>
      effectHas_ok (setResult_inv (setRamp_inv h q (Ramp.next_ok (inv_ramp_ok h q))) _)
  | rmpGetcur sel r =>
    exact renderCommand_inv h hi fun _ _ => effectHas_select fun q => effectHas_ok (setResult_inv h _)
  | fltCoef cutoff fs => exact checked_inv h hi fun _ => loadFilterCoef_inv h cutoff fs
  | fltNext v x =>
    exact checked_inv h hi fun hv =>
      setResult_inv (updVoice_inv h (voiceOk_lt hv) (Voice.withFiltY_ok (inv_voice_ok h _) _)) _
  | fltClear v => exact voiceCommand_inv h hi fun _ hx => Voice.withFiltY_ok hx 0
  | vAssign v id f p tb => exact checked_inv h hi fun hv => assignVoice_inv h (voiceOk_lt hv) id f p tb
  | vPressure v x => exact voiceCommand_inv h hi fun _ hx => Voice.setPressure_ok hx x
  | vPitch v f => exact voiceCommand_inv h hi fun _ hx => Voice.setPitch_ok hx f
  | vTimbre v x => exact voiceCommand_inv h hi fun _ hx => Voice.setTimbre_ok hx x
  | vRelease v => exact voiceCommand_inv h hi fun _ hx => Voice.release_ok hx
  | vRender v start ns =>
    exact renderCommand_inv h hi fun _ _ => effectHas_check fun _ => effectHas_check fun _ =>
      effectHas_ok (renderRun_inv h _ _ _)
  | mixClear nch ns =>
    exact renderCommand_inv h hi fun ha _ => effectHas_check fun hargs =>
      effectHas_ok (mixClear_inv h (hi ha.1) hargs)
  | mixAcc k x => exact checked_inv h hi fun _ => withOut_inv h (mixAddAll_wf h.out _ _ _)

theorem execWord_inv (h : s.Inv) (hi : s.portFree) (w : Command) : NextHas State.Inv (execWord exec w s) := by
  unfold execWord
  split
  · exact exec_inv h hi _
  · exact nextHas_next (illegal_has h (setCtlIllegal_inv h) (fun ha => raise_inv h (hi ha.1)) w.w0)

end Commands

/-! ### Every step keeps what its parts keep -/

/-- A property that retiring a command and ending a turn keep, and that holds of what the turn's part can leave, is
one of the state after the step. -/
theorem step_has {P : State → Prop} {s : State} (hs : P s) (hend : ∀ t, P t → P t.endTurn)
    (hret : ∀ t, P t → P t.retire) (hreset : P s.hardwareReset)
    (hbody : ∀ ns, s.phase = .body ns → P (s.bodyStep ns))
    (hfinish : ∀ ns, s.phase = .finish ns → P (s.finishStep ns))
    (hcmd : ∀ w, s.nextCommand = some w → s.portFree → s.executes = decode w → NextHas P (execWord exec w s)) :
    NextHas P (step s) := by
  have command (w : Command) (hw : s.nextCommand = some w) (hi : s.portFree) (he : s.executes = decode w) :
      NextHas P (finishCommand (execWord exec w s)) := by
    have hr := hcmd w hw hi he
    intro t ht
    cases e : execWord exec w s with
    | next u =>
      rw [e] at ht
      cases ht
      exact hend _ (hret _ (hr u e))
    | fault f => exact nomatch f
    | refused f =>
      rw [e] at ht
      exact nomatch ht
  unfold step
  split
  · exact nextHas_next hs
  · exact nextHas_next (hend _ hreset)
  · next ht =>
    split
    · exact nextHas_next (hend _ hs)
    · next w hw =>
      have hport : s.port = .control := by rw [State.port, ht]
      refine command w hw (fun hp => nomatch hport.symm.trans hp) ?_
      simp [State.executes, ht, hw]
  · next ht =>
    split
    · exact nextHas_next (hend _ (hbody _ ‹_›))
    · exact nextHas_next (hend _ (hfinish _ ‹_›))
    · next hi =>
      split
      · exact nextHas_next (hend _ hs)
      · next w hw =>
        refine command w hw (fun _ => hi) ?_
        simp [State.executes, ht, hi, hw]

theorem step_inv {s : State} (h : s.Inv) : NextHas State.Inv (step s) :=
  step_has h (fun _ => endTurn_inv) (fun _ => retire_inv) (hardwareReset_inv h) (fun _ => bodyStep_inv h)
    (fun _ => finishStep_inv h) fun w _ hi _ => execWord_inv h hi w

/-- Settles O58: every operation a step is made of keeps the invariant, from `setVoice_inv` for the voice slots and
`State.Rendering` for a `RENDER` in progress on. -/
theorem invKeptByEveryStep : Obligations.InvKeptByEveryStep := fun _ t h => step_inv h t

/-! ### A voice that plays (10_state.md R37 (c), (d)) -/

/-- The part of R37 that speaks of one voice: a Free voice is silent at phase 0, and the two oscillators run
together. -/
structure Voice.Plays (x : Voice) : Prop where
  free : x.vstate = .free → x.env.stage = .idle ∧ x.osc0.phase = 0 ∧ x.filtY = 0
  together : x.osc0 = x.osc1

/-- `y` is used only where `x` is, and under the same identifier. -/
def Voice.UsedAs (y x : Voice) : Prop := y.vstate ≠ .free → x.vstate ≠ .free ∧ y.noteId = x.noteId

theorem Voice.zero_plays : Voice.zero.Plays := ⟨fun _ => ⟨rfl, rfl, rfl⟩, rfl⟩

theorem Voice.prepare_plays (x : Voice) (fs time : Word) (mode : RampMode) : (x.prepare fs time mode).Plays :=
  ⟨fun _ => ⟨rfl, rfl, rfl⟩, rfl⟩

/-- `V.ASSIGN` sets both phases to 0 and keeps both increments (R181). -/
theorem Voice.assign_plays {x : Voice} (h : x.Plays) (seq : Word) (id : Half) (f p tb : Word) :
    (x.assign seq id f p tb).Plays where
  free := fun hf => nomatch hf
  together := congrArg Osc.resetPhase h.together

/-- A sample clears a silent voice, and moves both oscillators of a sounding one, which is not Free (R186). -/
theorem Voice.sampled_plays {x : Voice} (h : x.Plays) (s : State) : (x.sampled s).Plays := by
  unfold Voice.sampled
  split
  · next hidle => exact ⟨fun _ => ⟨hidle, rfl, rfl⟩, congrArg Osc.resetPhase h.together⟩
  · next hsound =>
    exact ⟨fun hf => absurd (h.free hf).1 hsound,
      congrArg (fun q : Osc => (q.setFreq x.frequency.next.cur s.srate).advance) h.together⟩

theorem Voice.sampled_usedAs (s : State) (x : Voice) : (x.sampled s).UsedAs x := by
  unfold Voice.sampled
  split
  · exact fun hu => absurd rfl hu
  · exact fun hu => ⟨hu, rfl⟩

/-- An event on a held voice changes nothing, or keeps a used voice used, under its identifier and with its oscillators
(R207 to R210). -/
theorem HolderOp.cases {f : Voice → Voice} (hf : HolderOp f) (x : Voice) :
    f x = x ∨ (x.vstate ≠ .free ∧ (f x).vstate ≠ .free ∧ (f x).noteId = x.noteId ∧ (f x).osc0 = x.osc0 ∧
      (f x).osc1 = x.osc1) := by
  cases hf with
  | release =>
    unfold Voice.release
    split
    · next ha => exact .inr ⟨fun hx => (nomatch ha.symm.trans hx), (fun hx => nomatch hx), rfl, rfl, rfl⟩
    · exact .inl rfl
  | pressure w =>
    simp only [Voice.setPressure]
    split
    · exact .inl rfl
    · next hx => exact .inr ⟨hx, hx, rfl, rfl, rfl⟩
  | pitch g =>
    simp only [Voice.setPitch]
    split
    · exact .inl rfl
    · next hx => exact .inr ⟨hx, hx, rfl, rfl, rfl⟩
  | timbre w =>
    simp only [Voice.setTimbre]
    split
    · exact .inl rfl
    · next hx => exact .inr ⟨hx, hx, rfl, rfl, rfl⟩

theorem HolderOp.plays {f : Voice → Voice} (hf : HolderOp f) {x : Voice} (h : x.Plays) : (f x).Plays := by
  rcases hf.cases x with he | ⟨-, hu, -, h0, h1⟩
  · rw [he]; exact h
  · exact ⟨fun hfree => absurd hfree hu, h0.trans (h.together.trans h1.symm)⟩

theorem HolderOp.usedAs {f : Voice → Voice} (hf : HolderOp f) (x : Voice) : (f x).UsedAs x := by
  rcases hf.cases x with he | ⟨hx, -, hid, -, -⟩
  · rw [he]; exact fun hu => ⟨hu, rfl⟩
  · exact fun _ => ⟨hx, hid⟩

/-! ### The invariant of playing (10_state.md R37 (c), (d), (e); 47_events_allocator.md R212) -/

section PlayInv

variable {s : State}

/-- Every slot plays, built or not. -/
theorem playInv_voice (h : s.PlayInv) (v : Nat) : (s.voice v).Plays := by
  by_cases hv : v < s.voices.length
  · exact ⟨h.free v hv, h.together v hv⟩
  · rw [State.voice, List.getElem?_eq_none (Nat.not_lt.1 hv)]
    exact Voice.zero_plays

/-- No slot in use but `v` holds the identifier `id`. -/
def State.NoOtherHolds (s : State) (v : Nat) (id : Half) : Prop :=
  ∀ w, w < s.voices.length → w < s.poly.toNat → w ≠ v → (s.voice w).vstate ≠ .free → (s.voice w).noteId ≠ id

/-- In a playing block no other slot holds the identifier of a slot in use (R37 (e)). -/
theorem noOtherHolds_noteId (h : s.PlayInv) {v : Nat} (hl : v < s.voices.length) (hp : v < s.poly.toNat)
    (hu : (s.voice v).vstate ≠ .free) : s.NoOtherHolds v (s.voice v).noteId :=
  fun w hw hpw hne hwu => h.oneToOne w v hw hl hpw hp hne hwu hu

/-- A slot replaced by a voice that plays, under an identifier that no other slot in use holds. -/
theorem setVoice_playInv (h : s.PlayInv) {v : Nat} {x : Voice} (hx : x.Plays)
    (hid : v < s.voices.length → v < s.poly.toNat → x.vstate ≠ .free → s.NoOtherHolds v x.noteId) :
    (s.setVoice v x).PlayInv := by
  have plays : ∀ w, ((s.setVoice v x).voice w).Plays := by
    intro w
    rw [voice_setVoice]
    split
    · exact hx
    · exact playInv_voice h w
  refine ⟨fun w _ => (plays w).free, fun w _ => (plays w).together, ?_⟩
  simp only [setVoice_slots_length, setVoice_poly, voice_setVoice]
  intro a b ha hb hpa hpb hne hua hub
  split_ifs at hua hub ⊢ with hva hvb hvb
  · exact absurd (hva.1.symm.trans hvb.1) hne
  · obtain ⟨rfl, -⟩ := hva
    exact (hid ha hpa hua b hb hpb (Ne.symm hne) hub).symm
  · obtain ⟨rfl, -⟩ := hvb
    exact hid hb hpb hub a ha hpa hne hua
  · exact h.oneToOne a b ha hb hpa hpb hne hua hub

/-- A slot replaced by a voice that plays and is used as the one before. -/
theorem setVoice_playInv_of_usedAs (h : s.PlayInv) {v : Nat} {x : Voice} (hx : x.Plays) (hu : x.UsedAs (s.voice v)) :
    (s.setVoice v x).PlayInv :=
  setVoice_playInv h hx fun hl hp hxu => by
    obtain ⟨hvu, hid⟩ := hu hxu
    rw [hid]
    exact noOtherHolds_noteId h hl hp hvu

theorem setCtlIllegal_playInv (h : s.PlayInv) : s.setCtlIllegal.PlayInv := { h with }

theorem setNoteDropped_playInv (h : s.PlayInv) : s.setNoteDropped.PlayInv := { h with }

theorem setResult_playInv (h : s.PlayInv) (w : Word) : (s.setResult w).PlayInv := { h with }

theorem raise_playInv (h : s.PlayInv) (c : FaultCause) (w0 : Word) : (s.raise c w0).PlayInv := { h with }

theorem endTurn_playInv (h : s.PlayInv) : s.endTurn.PlayInv := { h with }

theorem retire_playInv (h : s.PlayInv) : s.retire.PlayInv := by
  unfold State.retire
  split <;> exact { h with }

theorem evqPush_playInv (h : s.PlayInv) (e : Event) : (s.evqPush e).PlayInv := by
  rcases evqPush_cases s e with ⟨-, he⟩ | ⟨-, he⟩ <;> rw [he] <;> exact { h with }

/-! #### Events -/

/-- Where `Find` gives slot `v` or none, no other slot in use holds the identifier: no two hold one, and `Find`
misses none (R205). -/
theorem find_noOtherHolds (h : s.PlayInv) {id : Half} {v : Nat} (hf : s.find id = some v ∨ s.find id = none) :
    s.NoOtherHolds v (s.build.noteId id) := by
  rcases hf with hf | hf
  · obtain ⟨hv, hh, -⟩ := (find_eq_some s id v).1 hf
    obtain ⟨⟨hpv, huv⟩, hidv⟩ : (v < s.poly.toNat ∧ (s.voice v).vstate ≠ .free) ∧
        (s.voice v).noteId = s.build.noteId id := by
      simpa [State.holds] using hh
    exact hidv ▸ noOtherHolds_noteId h hv hpv huv
  · intro w hw hpw _ hu hid
    have hholds : s.holds w id = true := by simp [State.holds, hpw, hu, hid]
    exact nomatch hholds.symm.trans ((find_eq_none s id).1 hf w hw)

theorem assignVoice_playInv (h : s.PlayInv) {v : Nat} {id : Half} (hf : s.find id = some v ∨ s.find id = none)
    (f p tb : Word) : (s.assignVoice v id f p tb).PlayInv :=
  { setVoice_playInv h (v := v) (x := (s.voice v).assign s.assignSeq (s.build.noteId id) f p tb)
      (Voice.assign_plays (playInv_voice h v) _ _ _ _ _) fun _ _ _ => find_noOtherHolds h hf with }

/-- A dispatched event keeps one voice per note (R212). -/
theorem dispatch_playInv (hi : s.Inv) (hp : s.status.prepared = true) (h : s.PlayInv) (e : Event) :
    (s.dispatch e).PlayInv := by
  obtain ⟨hl, hpoly⟩ := inv_hasVoice hi hp
  refine dispatch_has hl hpoly h (setNoteDropped_playInv h) ?_ ?_ e
  · intro v f _ _ hf
    exact setVoice_playInv_of_usedAs h (hf.plays (playInv_voice h v)) (hf.usedAs _)
  · intro v id f p tb _ _ hfind
    exact assignVoice_playInv h hfind f p tb

/-! #### The three steps of a RENDER, PREPARE and reset -/

theorem renderBegin_playInv (hi : s.Inv) (hr : s.ready) (hp : s.phase = .idle) (h : s.PlayInv) {nch ns : Word}
    (ha : ¬(!s.renderArgsOk nch ns) = true) : (s.renderBegin nch ns).PlayInv := by
  have both : (s.renderBegin nch ns).Rendering ns ∧ (s.renderBegin nch ns).PlayInv :=
    List.foldlRecOn (motive := fun t => t.Rendering ns ∧ t.PlayInv) s.evq State.dispatch
      ⟨flushed_rendering hi hr hp ha, { h with }⟩
      fun _ ⟨hren, hplay⟩ e _ => ⟨dispatch_rendering hren e, dispatch_playInv hren.inv hren.prepared hplay e⟩
  exact both.2

theorem sampleVoice_playInv (h : s.PlayInv) (v n : Nat) : (s.sampleVoice v n).PlayInv := by
  rw [sampleVoice_eq]
  exact { setVoice_playInv_of_usedAs h (Voice.sampled_plays (playInv_voice h v) s) (Voice.sampled_usedAs s _) with }

theorem bodyStep_playInv (h : s.PlayInv) (ns : Word) : (s.bodyStep ns).PlayInv :=
  have body : (s.renderBody ns).PlayInv :=
    List.foldlRecOn (motive := State.PlayInv) s.slots (fun t v => State.renderRun v ns.toNat 0 t) { h with }
      fun t ht v _ => renderRun_induct (P := State.PlayInv) v (fun _ n hu => sampleVoice_playInv hu v n) ns.toNat 0 t ht
  { body with }

theorem advanceGlobals_playInv (h : s.PlayInv) (ns : Word) : (s.advanceGlobals ns).PlayInv := { h with }

theorem refreshDerived_playInv (h : s.PlayInv) : s.refreshDerived.PlayInv := { h with }

theorem finishStep_playInv (h : s.PlayInv) (ns : Word) : (s.finishStep ns).PlayInv :=
  { refreshDerived_playInv (advanceGlobals_playInv h ns) with }

/-- After `PREPARE` every voice is Free (R221). -/
theorem prepare_playInv (fs mb poly : Word) : (s.prepare fs mb poly).PlayInv := by
  have prepared : ∀ v, v < (s.prepare fs mb poly).voices.length →
      (s.prepare fs mb poly).voice v = (s.voice v).prepare fs s.cfgRampT s.rampMode :=
    fun v hv => prepare_voice (prepare_voices_length fs mb poly ▸ hv) fs mb poly
  have plays : ∀ v, v < (s.prepare fs mb poly).voices.length → ((s.prepare fs mb poly).voice v).Plays :=
    fun v hv => prepared v hv ▸ Voice.prepare_plays _ _ _ _
  refine ⟨fun v hv => (plays v hv).free, fun v hv => (plays v hv).together, fun v _ hv _ _ _ _ hu => ?_⟩
  rw [prepared v hv] at hu
  exact absurd rfl hu

theorem hardwareReset_playInv (s : State) : s.hardwareReset.PlayInv := { resetOf_playInv s.build with }

/-! #### Commands -/

/-- A render-port command keeps the invariant if its own effect does, where it takes place. -/
theorem renderCommand_playInv {i : Instr} {e : Effect} (h : s.PlayInv)
    (he : s.accepting → (needsPrepared i = true → s.status.prepared = true) → EffectHas State.PlayInv e) :
    NextHas State.PlayInv (renderCommand i s e) :=
  renderCommand_has h (setCtlIllegal_playInv h) (fun _ => raise_playInv h) he

/-- A command that writes `RESULT` only. -/
theorem reading_playInv {i : Instr} {p : Prop} [Decidable p] {c : FaultCause} {w : Word} (h : s.PlayInv) :
    NextHas State.PlayInv (renderCommand i s (if p then .error c else .ok (s.setResult w))) :=
  renderCommand_playInv h fun _ _ => effectHas_check fun _ => effectHas_ok (setResult_playInv h w)

/-- A command that the render port does not take keeps the invariant, whatever its effect would be. -/
theorem discarded_playInv {i : Instr} {e : Effect} (h : s.PlayInv) (hp : s.port ≠ .render) :
    NextHas State.PlayInv (renderCommand i s e) :=
  renderCommand_playInv h fun ha => absurd ha.1 hp

theorem execWrcfg_playInv (h : s.PlayInv) (k : Half) (x : Word) : NextHas State.PlayInv (execWrcfg k x s) := by
  refine renderCommand_playInv h fun _ _ => ?_
  split
  iterate 4 exact effectHas_ok { h with }
  exact effectHas_error

theorem execRdreg_playInv (h : s.PlayInv) (sel : Octet) (reg : Half) :
    NextHas State.PlayInv (execRdreg sel reg s) := by
  unfold execRdreg
  split
  · exact nextHas_next (setCtlIllegal_playInv h)
  · exact nextHas_next (setResult_playInv h _)
  · exact nextHas_next (onRender_has h (fun _ => raise_playInv h) fun _ _ => effectHas_error)

theorem execSetglobal_playInv (h : s.PlayInv) (k : Half) (x : Word) :
    NextHas State.PlayInv (execSetglobal k x s) := by
  unfold execSetglobal State.illegalOnRender
  split
  · refine nextHas_next ?_
    split
    · exact h
    · exact raise_playInv h .illegalCmd _
  · refine nextHas_next ?_
    split
    · exact setCtlIllegal_playInv h
    · exact { h with }

/-- Every command but a state-changing direct unit command of the render port. -/
theorem exec_playInv (hi : s.Inv) (hfree : s.portFree) (h : s.PlayInv) (i : Instr)
    (hd : s.port = .render → isDirect i = false) : NextHas State.PlayInv (exec i s) := by
  cases i with
  | nop => exact renderCommand_playInv h fun _ _ => effectHas_ok h
  | prepare fs mb poly =>
    exact renderCommand_playInv h fun _ _ => effectHas_check fun _ => effectHas_check fun _ =>
      effectHas_check fun _ => effectHas_ok (prepare_playInv fs mb poly)
  | render nch ns =>
    exact renderCommand_playInv h fun ha hp => effectHas_check fun hargs =>
      effectHas_ok { renderBegin_playInv hi ⟨ha, hp rfl⟩ (hfree ha.1) h hargs with }
  | wrcfg k x => exact execWrcfg_playInv h k x
  | rdreg sel reg => exact execRdreg_playInv h sel reg
  | setglobal k x => exact execSetglobal_playInv h k x
  | evNoteon | evNoteoff | evPressure | evPitch | evTimbre =>
    exact eventCommand_has h (evqPush_playInv h _) (fun _ => raise_playInv h) fun hr => dispatch_playInv hi hr.2 h _
  | wtRead | envIsactive | mixRead | mixReadsat => exact reading_playInv h
  | rmpGetcur sel r =>
    exact renderCommand_playInv h fun _ _ => effectHas_select fun q => effectHas_ok (setResult_playInv h _)
  | oscSetfreq | oscNext | oscReset | envNoteon | envNoteoff | envNext | envLoadp | rmpSettarget | rmpReset | rmpNext
  | fltCoef | fltNext | fltClear | vAssign | vPressure | vPitch | vTimbre | vRelease | vRender | mixClear | mixAcc =>
    exact discarded_playInv h fun hp => nomatch hd hp

theorem execWord_playInv (hi : s.Inv) (hfree : s.portFree) (h : s.PlayInv) (w : Command)
    (hd : s.port = .render → ∀ i, decode w = some i → isDirect i = false) :
    NextHas State.PlayInv (execWord exec w s) := by
  unfold execWord
  split
  · next i hw => exact exec_playInv hi hfree h i fun hp => hd hp i hw
  · exact nextHas_next (illegal_has h (setCtlIllegal_playInv h) (fun _ => raise_playInv h) w.w0)

/-- What a step of the render port that plays executes is no state-changing direct unit command. -/
theorem playsNext_not_direct (h : s.playsNext = true) (hp : s.port = .render) {i : Instr} (hi : s.executes = some i) :
    isDirect i = false := by
  simpa [State.playsNext, hp, hi] using h

end PlayInv

theorem step_playInv {s : State} (hi : s.Inv) (h : s.PlayInv) (hplays : s.playsNext = true) :
    NextHas State.PlayInv (step s) :=
  step_has h (fun _ => endTurn_playInv) (fun _ => retire_playInv) (hardwareReset_playInv s)
    (fun ns _ => bodyStep_playInv h ns) (fun ns _ => finishStep_playInv h ns) fun w _ hfree hexec =>
      execWord_playInv hi hfree h w fun hp _ hw => playsNext_not_direct hplays hp (hexec.trans hw)

/-- Settles O59: `setVoice_playInv` says what a slot may be replaced by, `find_noOtherHolds` why no other slot holds
an identifier that is assigned. -/
theorem playInvKeptByPlaying : Obligations.PlayInvKeptByPlaying := fun _ t hi h hplays => step_playInv hi h hplays t

/-! ### The register numbers (10_state.md R35) -/

/-- The numbers of the global registers. -/
def globalNumbers : List Nat :=
  List.range' 0x0000 12 ++ List.range' 0x0010 3 ++ List.range' 0x0020 7 ++ List.range' 0x0030 7 ++ List.range' 0x0040 24

/-- The numbers of the registers of a voice. -/
def voiceNumbers : List Nat :=
  List.range' 0x0100 3 ++ List.range' 0x0110 4 ++ List.range' 0x0120 4 ++ [0x0130] ++ List.range' 0x0140 24

theorem globalRegs_numbers (s : State) : s.globalRegs.map Prod.fst = globalNumbers := rfl

theorem voiceRegs_numbers (x : Voice) : x.regs.map Prod.fst = voiceNumbers := rfl

/-- In a table with no number twice a lookup gives the word listed. -/
theorem lookup_of_mem {l : List (Nat × Word)} (hl : (l.map Prod.fst).Nodup) {k : Nat} {w : Word} (h : (k, w) ∈ l) :
    l.lookup k = some w := by
  obtain ⟨l₁, l₂, rfl⟩ := List.append_of_mem h
  refine List.lookup_eq_some_iff.2 ⟨l₁, l₂, rfl, fun p hp => bne_iff_ne.2 fun he => ?_⟩
  rw [List.map_append, List.nodup_append] at hl
  exact hl.2.2 p.1 (List.mem_map_of_mem hp) k (by simp) he.symm

/-- A lookup of a number that the table does not have. -/
theorem lookup_of_not_mem {l : List (Nat × Word)} {k : Nat} (h : k ∉ l.map Prod.fst) : l.lookup k = none :=
  List.lookup_eq_none_iff.2 fun _ hp => bne_iff_ne.2 fun he => h (he ▸ List.mem_map_of_mem hp)

section Rdreg

variable {s : State} {sel : Octet} {reg : Half} {w : Word}

theorem readReg_global (h : (reg.toNat, w) ∈ s.globalRegs) : s.readReg 0 reg = some w := by
  have hlow : ∀ k ∈ globalNumbers, k < 0x0100 := by decide
  have hk : reg.toNat < 0x0100 := hlow _ (List.mem_map_of_mem (f := Prod.fst) h)
  rw [State.readReg, if_pos hk, if_pos rfl]
  exact lookup_of_mem (globalRegs_numbers s ▸ by decide) h

theorem readReg_voice (hv : sel.toNat < s.build.maxPoly) (h : (reg.toNat, w) ∈ (s.voice sel.toNat).regs) :
    s.readReg sel reg = some w := by
  have hhigh : ∀ k ∈ voiceNumbers, ¬k < 0x0100 := by decide
  have hk : ¬reg.toNat < 0x0100 := hhigh _ (List.mem_map_of_mem (f := Prod.fst) h)
  rw [State.readReg, if_neg hk, if_pos hv]
  exact lookup_of_mem (voiceRegs_numbers _ ▸ by decide) h

theorem readReg_global_none (hk : reg.toNat < 0x0100) (h : sel ≠ 0 ∨ reg.toNat ∉ globalNumbers) :
    s.readReg sel reg = none := by
  rw [State.readReg, if_pos hk]
  split
  · next hsel => exact lookup_of_not_mem (globalRegs_numbers s ▸ h.resolve_left (not_not.2 hsel))
  · rfl

theorem readReg_voice_none (hk : 0x0100 ≤ reg.toNat) (h : s.build.maxPoly ≤ sel.toNat ∨ reg.toNat ∉ voiceNumbers) :
    s.readReg sel reg = none := by
  rw [State.readReg, if_neg (Nat.not_lt.2 hk)]
  split
  · next hv => exact lookup_of_not_mem (voiceRegs_numbers _ ▸ h.resolve_left (Nat.not_le.2 hv))
  · rfl

/-! ### `RDREG` (48_engine_system.md R229) -/

/-- A `RDREG` that names a register, halted or not. -/
theorem exec_rdreg_some (hr : s.port = .render) (h : s.readReg sel reg = some w) :
    exec (.rdreg sel reg) s = .next (s.setResult w) := by
  show execRdreg sel reg s = _
  rw [execRdreg, hr, h]

/-- A `RDREG` that names no register. -/
theorem exec_rdreg_none (hr : s.port = .render) (h : s.readReg sel reg = none) :
    exec (.rdreg sel reg) s =
      .next (if s.status.halted then s else s.raise .badIndex (encode (.rdreg sel reg)).w0) := by
  show execRdreg sel reg s = _
  rw [execRdreg, hr, h]
  rfl

/-- Settles O23: below 0x0100 the numbers are those of `globalNumbers`, from there on those of `voiceNumbers`. -/
theorem rdregBadNumbers : Obligations.RdregBadNumbers := by
  rintro sel reg s hr (⟨hk, h⟩ | ⟨hk, h⟩)
  · exact exec_rdreg_none hr (readReg_global_none hk h)
  · exact exec_rdreg_none hr (readReg_voice_none hk h)

end Rdreg

/-! ### The words of the registers (10_state.md R23, R32, R35) -/

/-- A narrow field reads with zeros above it. -/
theorem setWidth_eq_zero_append (n : Nat) {m : Nat} (x : BitVec m) : x.setWidth (n + m) = 0#n ++ x :=
  BitVec.setWidth_eq_append (Nat.le_add_left m n) |>.trans <| by simp

theorem octet_setWidth (x : Octet) : x.setWidth 32 = 0#24 ++ x := setWidth_eq_zero_append 24 x

theorem half_setWidth (x : Half) : x.setWidth 32 = 0#16 ++ x := setWidth_eq_zero_append 16 x

theorem cfgCtrl_setWidth (x : BitVec 4) : x.setWidth 32 = 0#28 ++ x := setWidth_eq_zero_append 28 x

/-- `STATUS` is its five flags under 27 zeros (R23). -/
theorem status_word (t : Status) :
    t.word = 0#27 ++ BitVec.ofBool t.ctlIllegal ++ BitVec.ofBool t.noteDropped ++ BitVec.ofBool t.evqOvf ++
      BitVec.ofBool t.halted ++ BitVec.ofBool t.prepared := by
  obtain ⟨a, b, c, d, e⟩ := t
  revert a b c d e
  decide

/-- The value of `STEP` is kept by its 64-bit sign extension (R32, R35). -/
theorem signExtend_step_toInt (b : BitVec 33) : (b.signExtend 64).toInt = b.toInt := by
  have h1 := BitVec.le_toInt b
  have h2 := BitVec.toInt_lt (x := b)
  rw [BitVec.toInt_signExtend, show min 64 33 = 33 from rfl, Int.bmod_def]
  omega

theorem step_low_word (b : BitVec 33) : (b.signExtend 64).extractLsb' 0 32 = wordOfInt b.toInt := by
  have h := signExtend_step_toInt b
  rw [BitVec.toInt_eq_toNat_cond] at h
  apply BitVec.eq_of_toNat_eq
  rw [wordOfInt, BitVec.toNat_ofInt, BitVec.extractLsb'_toNat, Nat.shiftRight_zero]
  omega

theorem step_high_word (b : BitVec 33) :
    (b.signExtend 64).extractLsb' 32 32 = if b.toInt < 0 then 0xFFFFFFFF#32 else 0 := by
  have h := signExtend_step_toInt b
  have h1 := BitVec.le_toInt b
  have h2 := BitVec.toInt_lt (x := b)
  rw [BitVec.toInt_eq_toNat_cond] at h
  apply BitVec.eq_of_toNat_eq
  rw [BitVec.extractLsb'_toNat, Nat.shiftRight_eq_div_pow]
  split
  · show _ = 0xFFFFFFFF
    omega
  · show _ = 0
    omega

/-- The registers of a ramp are its fields, numbered from `base`. -/
theorem rampRegs_eq (base : Nat) (q : Ramp) : rampRegs base q = (q.fields.zipIdx base).map Prod.swap := by
  rw [Ramp.fields, step_low_word, step_high_word]
  rfl

theorem mem_rampRegs {base k : Nat} {q : Ramp} {x : Word} (h : q.fields[k]? = some x) :
    (base + k, x) ∈ rampRegs base q := by
  rw [rampRegs_eq]
  exact List.mem_map_of_mem (f := Prod.swap) (List.mk_add_mem_zipIdx_iff_getElem?.2 h)

/-- Word `i` of the store stands at 0x0020 + i. -/
theorem mem_globalRegs_store {s : State} {i : Nat} {x : Word} (h : s.store.words[i]? = some x) :
    (0x0020 + i, x) ∈ s.globalRegs := by
  have hmem : (0x0020 + i, x) ∈ (s.store.words.zipIdx 0x0020).map Prod.swap :=
    List.mem_map_of_mem (f := Prod.swap) (List.mk_add_mem_zipIdx_iff_getElem?.2 h)
  simp only [State.globalRegs, List.mem_append]
  exact .inl (.inl (.inl (.inl (.inr hmem))))

/-- Global ramp `g` stands at 0x0040 + 8 · g. -/
theorem mem_globalRegs_ramp {s : State} {g k : Nat} {q : Ramp} {x : Word}
    (hq : [s.grCutoff, s.grMix, s.grDecayRamp][g]? = some q) (hx : q.fields[k]? = some x) :
    (0x0040 + 8 * g + k, x) ∈ s.globalRegs := by
  have hmem := mem_rampRegs (base := 0x0040 + 8 * g) hx
  simp only [State.globalRegs, List.mem_append]
  match g, hq with
  | 0, rfl => exact .inl (.inl (.inr hmem))
  | 1, rfl => exact .inl (.inr hmem)
  | 2, rfl => exact .inr hmem

/-- Ramp `r` of a voice stands at 0x0140 + 8 · r. -/
theorem mem_voiceRegs_ramp {v : Voice} {r k : Nat} {q : Ramp} {x : Word}
    (hq : [v.pressure, v.timbre, v.frequency][r]? = some q) (hx : q.fields[k]? = some x) :
    (0x0140 + 8 * r + k, x) ∈ v.regs := by
  have hmem := mem_rampRegs (base := 0x0140 + 8 * r) hx
  simp only [Voice.regs, List.mem_append]
  match r, hq with
  | 0, rfl => exact .inl (.inl (.inr hmem))
  | 1, rfl => exact .inl (.inr hmem)
  | 2, rfl => exact .inr hmem

theorem exists_getElem? {α : Type} {l : List α} {i : Nat} (h : i < l.length) : ∃ x, l[i]? = some x :=
  ⟨_, List.getElem?_eq_getElem h⟩

section Reads

variable {s : State}

theorem exec_rdreg_global (hr : s.port = .render) {reg : Half} {w : Word} (h : (reg.toNat, w) ∈ s.globalRegs) :
    exec (.rdreg 0 reg) s = .next { s with result := w } :=
  exec_rdreg_some hr (readReg_global h)

theorem exec_rdreg_voice (hr : s.port = .render) {v : Octet} (hv : v.toNat < s.build.maxPoly) {reg : Half} {w : Word}
    (h : (reg.toNat, w) ∈ (s.voice v.toNat).regs) : exec (.rdreg v reg) s = .next { s with result := w } :=
  exec_rdreg_some hr (readReg_voice hv h)

/-- A register number below 2^16 is its own 16-bit operand. -/
theorem mem_of_number {l : List (Nat × Word)} {n : Nat} {w : Word} (hn : n < 2 ^ 16) (h : (n, w) ∈ l) :
    ((BitVec.ofNat 16 n).toNat, w) ∈ l := by
  rwa [toNat_ofNat_of_lt hn]

/-- Settles O22: every register of R35 is listed under its number in `globalRegs` or `Voice.regs`. -/
theorem rdregReads : Obligations.RdregReads := by
  intro s hr
  refine ⟨fun p hp => exec_rdreg_global hr ?_, fun i hi => ?_, fun g k hg hk => ?_, fun v hv =>
    ⟨fun p hp => exec_rdreg_voice hr hv ?_, fun r k hr3 hk => ?_⟩⟩
  · revert p hp
    simp [State.globalRegs, status_word, octet_setWidth, half_setWidth, cfgCtrl_setWidth, State.evqCount]
  · obtain ⟨x, hx⟩ := exists_getElem? (l := s.store.words) hi
    exact ⟨x, hx, exec_rdreg_global hr (mem_of_number (by omega) (mem_globalRegs_store hx))⟩
  · obtain ⟨q, hq⟩ := exists_getElem? (l := [s.grCutoff, s.grMix, s.grDecayRamp]) hg
    obtain ⟨x, hx⟩ := exists_getElem? (l := q.fields) hk
    exact ⟨q, x, hq, hx, exec_rdreg_global hr (mem_of_number (by omega) (mem_globalRegs_ramp hq hx))⟩
  · refine List.mem_of_mem_take (i := 12) ?_
    have hmem := List.mem_map_of_mem (f := fun p : Half × Word => (p.1.toNat, p.2)) hp
    rw [Voice.regs, half_setWidth]
    exact hmem
  · obtain ⟨q, hq⟩ :=
      exists_getElem? (l := [(s.voice v.toNat).pressure, (s.voice v.toNat).timbre, (s.voice v.toNat).frequency]) hr3
    obtain ⟨x, hx⟩ := exists_getElem? (l := q.fields) hk
    exact ⟨q, x, hq, hx, exec_rdreg_voice hr hv (mem_of_number (by omega) (mem_voiceRegs_ramp hq hx))⟩

end Reads

end Sys2Proof.Machine

/-! PROOFS of the family 20_memory.md: what a step of each agent does and leaves unchanged (R70, R71, R78), the race
of an edit with a `RENDER` (R72), the event commands (R66), the geometry (R62) and what is observed of a run (R283). -/

namespace Sys2Proof.Machine

/-! ### What a step is, by the turn (20_memory.md R71, R74) -/

section Steps

variable {s t u : State} {w : Command} {ws : List Command} {ts : List Turn} {ns : Word} {i : Instr}

theorem port_of_control (h : s.turns = .control :: ts) : s.port = .control := by rw [State.port, h]

theorem port_of_render (h : s.turns = .render :: ts) : s.port = .render := by rw [State.port, h]

/-- The body step, at a render turn inside a `RENDER` (R224). -/
theorem step_body (h : s.turns = .render :: ts) (hp : s.phase = .body ns) :
    step s = .next (s.bodyStep ns).endTurn := by
  rw [step, h, hp]

/-- The end step, at a render turn inside a `RENDER` (R225). -/
theorem step_finish (h : s.turns = .render :: ts) (hp : s.phase = .finish ns) :
    step s = .next (s.finishStep ns).endTurn := by
  rw [step, h, hp]

/-- A control turn takes the word the control port presents, inside a `RENDER` or not. -/
theorem step_control_word (h : s.turns = .control :: ts) (hc : s.controlIn = w :: ws) :
    step s = finishCommand (execWord exec w s) := by
  have hn : s.nextCommand = some w := by simp [State.nextCommand, State.portIn, port_of_control h, hc]
  rw [step, h, hn]

/-- A render turn takes the word the render port presents, outside a `RENDER`. -/
theorem step_render_word (h : s.turns = .render :: ts) (hp : s.phase = .idle) (hr : s.renderIn = w :: ws) :
    step s = finishCommand (execWord exec w s) := by
  have hn : s.nextCommand = some w := by simp [State.nextCommand, State.portIn, port_of_render h, hr]
  rw [step, h, hp, hn]

theorem execWord_some (h : decode w = some i) : execWord exec w s = exec i s := by
  rw [execWord, h]

/-- All that a step can be, and the state it leaves. -/
inductive StepTo (s : State) : State → Prop where
  /-- no turn is left -/
  | rest (h : s.turns = []) : StepTo s s
  | reset (ts : List Turn) (h : s.turns = .reset :: ts) : StepTo s s.hardwareReset.endTurn
  | body (ns : Word) (ts : List Turn) (h : s.turns = .render :: ts) (hp : s.phase = .body ns) :
    StepTo s (s.bodyStep ns).endTurn
  | finish (ns : Word) (ts : List Turn) (h : s.turns = .render :: ts) (hp : s.phase = .finish ns) :
    StepTo s (s.finishStep ns).endTurn
  /-- the port of the turn presents nothing -/
  | noWord (hn : s.nextCommand = none) (hi : s.portFree) : StepTo s s.endTurn
  /-- the port of the turn presents the word `w` -/
  | word (w : Command) (u : State) (hn : s.nextCommand = some w) (hi : s.portFree)
    (h : execWord exec w s = .next u) : StepTo s u.retire.endTurn

/-- A command never stops, so a finished one has left a state. -/
theorem finishCommand_next {r : Host.Outcome State Fault Refusal} (h : finishCommand r = .next t) :
    ∃ u, r = .next u ∧ t = u.retire.endTurn := by
  cases r with
  | next u => cases h; exact ⟨u, rfl, rfl⟩
  | fault f => exact nomatch f
  | refused f => exact nomatch h

theorem step_to (h : step s = .next t) : StepTo s t := by
  have word {w : Command} (hn : s.nextCommand = some w) (hi : s.portFree)
      (h : finishCommand (execWord exec w s) = .next t) : StepTo s t := by
    obtain ⟨u, hu, rfl⟩ := finishCommand_next h
    exact .word w u hn hi hu
  unfold step at h
  split at h
  · next ht => cases h; exact .rest ht
  · next ts ht => cases h; exact .reset ts ht
  · next ts ht =>
    have hi : s.portFree := fun hp => nomatch (port_of_control ht).symm.trans hp
    split at h
    · next hn => cases h; exact .noWord hn hi
    · next w hn => exact word hn hi h
  · next ts ht =>
    split at h
    · next ns hp => cases h; exact .body ns ts ht hp
    · next ns hp => cases h; exact .finish ns ts ht hp
    · next hp =>
      split at h
      · next hn => cases h; exact .noWord hn fun _ => hp
      · next w hn => exact word hn (fun _ => hp) h

/-! ### The inputs (20_memory.md R70) -/

/-- The inputs of `t` are those of `s`: what is still presented on the two ports, and the turns to come. -/
structure State.SameInputs (s t : State) : Prop where
  renderIn : t.renderIn = s.renderIn
  controlIn : t.controlIn = s.controlIn
  turns : t.turns = s.turns

theorem State.SameInputs.port (h : s.SameInputs t) : t.port = s.port := by
  rw [State.port, State.port, h.turns]

theorem retire_render (h : s.port = .render) : s.retire = { s with renderIn := s.renderIn.tail } := by
  rw [State.retire, h]

theorem retire_control (h : s.port = .control) : s.retire = { s with controlIn := s.controlIn.tail } := by
  rw [State.retire, h]

/-- After a command of the render port the port presents the next one, and the turn has passed. -/
theorem retire_endTurn_render (hi : s.SameInputs u) (h : s.turns = .render :: ts) :
    u.retire.endTurn = { u with renderIn := s.renderIn.tail, turns := ts } := by
  rw [retire_render (hi.port.trans (port_of_render h)), State.endTurn]
  simp only [hi.turns, hi.renderIn, h, List.tail_cons]

/-- After a command of the control port the port presents the next one, and the turn has passed. -/
theorem retire_endTurn_control (hi : s.SameInputs u) (h : s.turns = .control :: ts) :
    u.retire.endTurn = { u with controlIn := s.controlIn.tail, turns := ts } := by
  rw [retire_control (hi.port.trans (port_of_control h)), State.endTurn]
  simp only [hi.turns, hi.controlIn, h, List.tail_cons]

end Steps

/-! ### The control port (30_encoding.md R96, 48_engine_system.md R227, R228) -/

section Control

variable {s t : State} {i : Instr}

theorem eventCommand_control (h : s.port = .control) (e : Event) : eventCommand e s = .next (s.evqPush e) := by
  rw [eventCommand, h]

theorem execRdreg_control (h : s.port = .control) (sel : Octet) (reg : Half) :
    execRdreg sel reg s = .next s.setCtlIllegal := by
  rw [execRdreg, h]

theorem execSetglobal_control (h : s.port = .control) (k : Half) (x : Word) :
    execSetglobal k x s =
      .next (if 6 < k.toNat then s.setCtlIllegal else { s with store := s.store.set k.toNat x }) := by
  rw [execSetglobal, h]

/-- A command does one of three things on the control port, the same whatever the state: it is discarded, it writes a
word of the store, or it is pushed. -/
theorem exec_control (i : Instr) :
    (∀ s : State, s.port = .control → exec i s = .next s.setCtlIllegal) ∨
      (∃ k x, ∀ s : State, s.port = .control → exec i s = .next { s with store := s.store.set k x }) ∨
      ∃ e, ∀ s : State, s.port = .control → exec i s = .next (s.evqPush e) := by
  cases i with
  | evNoteon | evNoteoff | evPressure | evPitch | evTimbre =>
    exact .inr (.inr ⟨_, fun _ h => eventCommand_control h _⟩)
  | setglobal k x =>
    by_cases hk : 6 < k.toNat
    · exact .inl fun s h => (execSetglobal_control h k x).trans (by rw [if_pos hk])
    · exact .inr (.inl ⟨k.toNat, x, fun s h => (execSetglobal_control h k x).trans (by rw [if_neg hk])⟩)
  | rdreg sel reg => exact .inl fun s h => execRdreg_control h sel reg
  | nop | prepare | render | wrcfg | wtRead | oscSetfreq | oscNext | oscReset | envNoteon | envNoteoff | envNext
  | envIsactive | envLoadp | rmpSettarget | rmpReset | rmpNext | rmpGetcur | fltCoef | fltNext | fltClear | vAssign
  | vPressure | vPitch | vTimbre | vRelease | vRender | mixClear | mixAcc | mixRead | mixReadsat =>
    exact .inl fun s h => renderCommand_control h

/-- Settles O12: none of the three things a command can do on the control port reads or writes the three fields. -/
theorem controlPortIgnoresHalt : Obligations.ControlPortIgnoresHalt := by
  intro i s t h p ph hport hexec
  have hport' : State.port { s with status := { s.status with halted := h, prepared := p }, phase := ph } = .control :=
    hport
  rcases exec_control i with hi | ⟨k, x, hi⟩ | ⟨e, hi⟩
  · rw [hi s hport] at hexec
    cases hexec
    exact hi _ hport'
  · rw [hi s hport] at hexec
    cases hexec
    exact hi _ hport'
  · rw [hi s hport] at hexec
    cases hexec
    rw [hi _ hport', State.evqPush, State.evqPush]
    split <;> rfl

/-- What a word of the control port may change (R78): the store, the queue at its end, and two flags, which it only
sets. -/
structure State.ControlWrites (s t : State) : Prop where
  rest : t = { s with
    store := t.store
    evq := t.evq
    status := { s.status with evqOvf := t.status.evqOvf, ctlIllegal := t.status.ctlIllegal } }
  evq : s.evq <+: t.evq
  evqOvf : s.status.evqOvf → t.status.evqOvf
  ctlIllegal : s.status.ctlIllegal → t.status.ctlIllegal

theorem State.ControlWrites.refl (s : State) : s.ControlWrites s := ⟨rfl, List.prefix_rfl, id, id⟩

theorem State.ControlWrites.sameInputs (h : s.ControlWrites t) : s.SameInputs t where
  renderIn := by rw [h.rest]
  controlIn := by rw [h.rest]
  turns := by rw [h.rest]

theorem setCtlIllegal_controlWrites (s : State) : s.ControlWrites s.setCtlIllegal :=
  ⟨rfl, List.prefix_rfl, id, fun _ => rfl⟩

theorem evqPush_controlWrites (s : State) (e : Event) : s.ControlWrites (s.evqPush e) := by
  rcases evqPush_cases s e with ⟨-, he⟩ | ⟨-, he⟩ <;> rw [he]
  · exact ⟨rfl, List.prefix_append _ _, id, id⟩
  · exact ⟨rfl, List.prefix_rfl, fun _ => rfl, id⟩

theorem exec_controlWrites (hp : s.port = .control) (h : exec i s = .next t) : s.ControlWrites t := by
  rcases exec_control i with hi | ⟨k, x, hi⟩ | ⟨e, hi⟩ <;> cases (hi s hp).symm.trans h
  · exact setCtlIllegal_controlWrites s
  · exact ⟨rfl, List.prefix_rfl, id, id⟩
  · exact evqPush_controlWrites s e

theorem execWord_controlWrites (hp : s.port = .control) (w : Command) :
    NextHas s.ControlWrites (execWord exec w s) := by
  unfold execWord
  split
  · exact fun t h => exec_controlWrites hp h
  · rw [State.illegal, hp]
    exact nextHas_next (setCtlIllegal_controlWrites s)

end Control

/-! ### The render agent (20_memory.md R78) -/

/-- What no operation of the render agent changes, and the little it may do to what the control agent owns (R78):
it takes events from the queue and clears the two flags. -/
structure State.RenderWrites (s t : State) : Prop extends s.SameInputs t where
  store : t.store = s.store
  evq : t.evq = s.evq ∨ t.evq = []
  evqOvf : t.status.evqOvf → s.status.evqOvf
  ctlIllegal : t.status.ctlIllegal → s.status.ctlIllegal

section RenderAgent

variable {s t u : State} {i : Instr} {e : Effect}

theorem State.RenderWrites.refl (s : State) : s.RenderWrites s := ⟨⟨rfl, rfl, rfl⟩, rfl, .inl rfl, id, id⟩

theorem State.RenderWrites.trans (h : s.RenderWrites t) (h' : t.RenderWrites u) : s.RenderWrites u where
  renderIn := h'.renderIn.trans h.renderIn
  controlIn := h'.controlIn.trans h.controlIn
  turns := h'.turns.trans h.turns
  store := h'.store.trans h.store
  evq := h'.evq.elim (fun he => h.evq.imp he.trans he.trans) .inr
  evqOvf := fun hf => h.evqOvf (h'.evqOvf hf)
  ctlIllegal := fun hf => h.ctlIllegal (h'.ctlIllegal hf)

/-! #### The operations -/

theorem raise_renderWrites (s : State) (c : FaultCause) (w0 : Word) : s.RenderWrites (s.raise c w0) :=
  { State.RenderWrites.refl s with }

theorem setNoteDropped_renderWrites (s : State) : s.RenderWrites s.setNoteDropped := { State.RenderWrites.refl s with }

theorem setResult_renderWrites (s : State) (w : Word) : s.RenderWrites (s.setResult w) :=
  { State.RenderWrites.refl s with }

theorem updVoice_renderWrites (s : State) (v : Nat) (f : Voice → Voice) : s.RenderWrites (s.updVoice v f) :=
  { State.RenderWrites.refl s with }

theorem assignVoice_renderWrites (s : State) (v : Nat) (id : Half) (f p tb : Word) :
    s.RenderWrites (s.assignVoice v id f p tb) :=
  { State.RenderWrites.refl s with }

theorem setRamp_renderWrites (s : State) (q : RampRef) (x : Ramp) : s.RenderWrites (s.setRamp q x) := by
  cases q <;> exact { State.RenderWrites.refl s with }

theorem loadEnvParams_renderWrites (s : State) : s.RenderWrites s.loadEnvParams := { State.RenderWrites.refl s with }

theorem loadFilterCoef_renderWrites (s : State) (cutoff fs : Word) : s.RenderWrites (s.loadFilterCoef cutoff fs) :=
  { State.RenderWrites.refl s with }

theorem mixClear_renderWrites (s : State) (nch ns : Word) : s.RenderWrites (s.mixClear nch ns) :=
  { State.RenderWrites.refl s with }

theorem evqFlush_renderWrites (s : State) : s.RenderWrites s.evqFlush :=
  { State.RenderWrites.refl s with evq := .inr rfl }

/-- `PREPARE` empties the queue and clears the sticky flags (R221). -/
theorem prepare_renderWrites (s : State) (fs mb poly : Word) : s.RenderWrites (s.prepare fs mb poly) where
  renderIn := rfl
  controlIn := rfl
  turns := rfl
  store := rfl
  evq := .inr rfl
  evqOvf := fun hf => nomatch hf
  ctlIllegal := fun hf => nomatch hf

/-- `WRCFG` 3 clears the sticky flags it names (R226). -/
theorem clearSticky_renderWrites (s : State) (x : Word) :
    s.RenderWrites { s with status := s.status.clearSticky x } :=
  { State.RenderWrites.refl s with
    evqOvf := fun hf => ((Bool.and_eq_true ..).mp hf).1
    ctlIllegal := fun hf => ((Bool.and_eq_true ..).mp hf).1 }

theorem onHolder_renderWrites (s : State) (id : Half) (f : Voice → Voice) : s.RenderWrites (s.onHolder id f) := by
  unfold State.onHolder
  split
  · exact updVoice_renderWrites s _ f
  · exact .refl s

theorem dispatchNoteOn_renderWrites (s : State) (id : Half) (f p tb : Word) :
    s.RenderWrites (s.dispatchNoteOn id f p tb) := by
  have assign (v : Nat) : s.RenderWrites (s.assignVoice v id f p tb) := assignVoice_renderWrites s v id f p tb
  unfold State.dispatchNoteOn
  split
  · exact assign _
  split
  · exact assign _
  split
  · exact assign _
  · exact setNoteDropped_renderWrites s

theorem dispatch_renderWrites (s : State) (e : Event) : s.RenderWrites (s.dispatch e) := by
  unfold State.dispatch
  cases e.kind with
  | noteOn => exact dispatchNoteOn_renderWrites s e.id e.a e.b e.c
  | noteOff | pressure | pitch | timbre => exact onHolder_renderWrites s e.id _

theorem renderBegin_renderWrites (s : State) (nch ns : Word) : s.RenderWrites (s.renderBegin nch ns) :=
  List.foldlRecOn (motive := fun t => s.RenderWrites t) s.evq State.dispatch
    ((mixClear_renderWrites s nch ns).trans (evqFlush_renderWrites _))
    fun t ht e _ => ht.trans (dispatch_renderWrites t e)

/-- A run of samples changes the slots and the buffer only. -/
theorem renderRun_renderWrites (v k n : Nat) (s : State) : s.RenderWrites (State.renderRun v k n s) := by
  rw [(renderRun_frame v k n s (Nat.le_refl n) (Nat.le_refl (n + k))).rest]
  exact { State.RenderWrites.refl s with }

/-- The body step changes the slots and the buffer only, once the envelope parameters are loaded (R224). -/
theorem renderBody_rest (s : State) (ns : Word) :
    s.renderBody ns = { s.loadEnvParams with voices := (s.renderBody ns).voices, out := (s.renderBody ns).out } := by
  refine List.foldlRecOn (motive := fun t : State => t = { s.loadEnvParams with voices := t.voices, out := t.out })
    s.slots (fun t v => State.renderRun v ns.toNat 0 t) rfl fun t ht v _ => ?_
  rw [(renderRun_frame v ns.toNat 0 t (Nat.le_refl 0) (Nat.le_refl (0 + ns.toNat))).rest, ht]

theorem bodyStep_renderWrites (s : State) (ns : Word) : s.RenderWrites (s.bodyStep ns) := by
  rw [State.bodyStep, renderBody_rest]
  exact { State.RenderWrites.refl s with }

theorem finishStep_renderWrites (s : State) (ns : Word) : s.RenderWrites (s.finishStep ns) :=
  { State.RenderWrites.refl s with }

/-! #### The commands -/

/-- On its port a render-port command adds only a raise to its own effect. -/
theorem renderCommand_renderWrites (hp : s.port = .render) (he : EffectHas s.RenderWrites e) :
    NextHas s.RenderWrites (renderCommand i s e) := by
  intro t h
  rcases renderCommand_cases h with ⟨hc, -⟩ | ⟨-, -, rfl⟩ | ⟨-, c, rfl⟩ | ⟨-, -, rfl⟩
  · exact nomatch hp.symm.trans hc
  · exact .refl t
  · exact raise_renderWrites s c _
  · exact he t rfl

/-- A command with one check in front of its effect. -/
theorem checked_renderWrites {p : Prop} [Decidable p] {c : FaultCause} (hp : s.port = .render)
    (h : s.RenderWrites t) : NextHas s.RenderWrites (renderCommand i s (if p then .error c else .ok t)) :=
  renderCommand_renderWrites hp (effectHas_check fun _ => effectHas_ok h)

/-- A command on the ramp its selector names (R161). -/
theorem selected_renderWrites {q : Option RampRef} {c : FaultCause} {f : RampRef → Effect} (hp : s.port = .render)
    (h : ∀ q, EffectHas s.RenderWrites (f q)) :
    NextHas s.RenderWrites (renderCommand i s (match q with
      | none => .error c
      | some q => f q)) :=
  renderCommand_renderWrites hp (effectHas_select h)

theorem eventCommand_render (hp : s.port = .render) (e : Event) :
    eventCommand e s = .next (s.onRender e.toInstr (.ok (s.dispatch e))) := by
  rw [eventCommand, hp]

theorem eventCommand_renderWrites (hp : s.port = .render) (e : Event) :
    NextHas s.RenderWrites (eventCommand e s) := by
  rw [eventCommand_render hp]
  exact nextHas_next (onRender_has (.refl s) (fun _ => raise_renderWrites s) fun _ _ =>
    effectHas_ok (dispatch_renderWrites s e))

theorem execWrcfg_renderWrites (hp : s.port = .render) (k : Half) (x : Word) :
    NextHas s.RenderWrites (execWrcfg k x s) := by
  refine renderCommand_renderWrites hp ?_
  split
  iterate 3 exact effectHas_ok { State.RenderWrites.refl s with }
  · exact effectHas_ok (clearSticky_renderWrites s x)
  · exact effectHas_error

theorem execRdreg_renderWrites (hp : s.port = .render) (sel : Octet) (reg : Half) :
    NextHas s.RenderWrites (execRdreg sel reg s) := by
  unfold execRdreg
  split
  · next hc => exact nomatch hp.symm.trans hc
  · exact nextHas_next (setResult_renderWrites s _)
  · exact nextHas_next (onRender_has (.refl s) (fun _ => raise_renderWrites s) fun _ _ => effectHas_error)

theorem illegalOnRender_renderWrites (s : State) (w0 : Word) : s.RenderWrites (s.illegalOnRender w0) := by
  unfold State.illegalOnRender
  split
  · exact .refl s
  · exact raise_renderWrites s .illegalCmd w0

theorem execSetglobal_renderWrites (hp : s.port = .render) (k : Half) (x : Word) :
    NextHas s.RenderWrites (execSetglobal k x s) := by
  unfold execSetglobal
  rw [hp]
  exact nextHas_next (illegalOnRender_renderWrites s _)

/-- Every command of the render port, by the shape of its meaning. -/
theorem exec_renderWrites (hp : s.port = .render) (i : Instr) : NextHas s.RenderWrites (exec i s) := by
  cases i with
  | evNoteon | evNoteoff | evPressure | evPitch | evTimbre => exact eventCommand_renderWrites hp _
  | wrcfg k x => exact execWrcfg_renderWrites hp k x
  | rdreg sel reg => exact execRdreg_renderWrites hp sel reg
  | setglobal k x => exact execSetglobal_renderWrites hp k x
  | rmpSettarget => exact selected_renderWrites hp fun q => effectHas_ok (setRamp_renderWrites s q _)
  | rmpReset =>
    exact selected_renderWrites hp fun q => effectHas_check fun _ => effectHas_ok (setRamp_renderWrites s q _)
  | rmpNext =>
    exact selected_renderWrites hp fun q =>
      effectHas_ok ((setRamp_renderWrites s q _).trans (setResult_renderWrites _ _))
  | rmpGetcur => exact selected_renderWrites hp fun q => effectHas_ok (setResult_renderWrites s _)
  | nop => exact renderCommand_renderWrites hp (effectHas_ok (.refl s))
  | envLoadp => exact renderCommand_renderWrites hp (effectHas_ok (loadEnvParams_renderWrites s))
  | prepare fs mb poly =>
    exact renderCommand_renderWrites hp (effectHas_check fun _ => effectHas_check fun _ => effectHas_check fun _ =>
      effectHas_ok (prepare_renderWrites s fs mb poly))
  | oscSetfreq =>
    exact renderCommand_renderWrites hp (effectHas_check fun _ => effectHas_check fun _ =>
      effectHas_ok (updVoice_renderWrites s _ _))
  | vRender v start ns =>
    exact renderCommand_renderWrites hp (effectHas_check fun _ => effectHas_check fun _ =>
      effectHas_ok (renderRun_renderWrites _ _ _ s))
  | render nch ns => exact checked_renderWrites hp { renderBegin_renderWrites s nch ns with }
  | fltCoef cutoff fs => exact checked_renderWrites hp (loadFilterCoef_renderWrites s cutoff fs)
  | mixClear nch ns => exact checked_renderWrites hp (mixClear_renderWrites s nch ns)
  | vAssign v id f p tb => exact checked_renderWrites hp (assignVoice_renderWrites s v.toNat id f p tb)
  | wtRead | envIsactive | mixRead | mixReadsat => exact checked_renderWrites hp (setResult_renderWrites s _)
  | mixAcc => exact checked_renderWrites hp { State.RenderWrites.refl s with }
  | oscReset | envNoteon | envNoteoff | fltClear | vPressure | vPitch | vTimbre | vRelease =>
    exact checked_renderWrites hp (updVoice_renderWrites s _ _)
  | oscNext | envNext | fltNext =>
    exact checked_renderWrites hp ((updVoice_renderWrites s _ _).trans (setResult_renderWrites _ _))

theorem execWord_renderWrites (hp : s.port = .render) (w : Command) :
    NextHas s.RenderWrites (execWord exec w s) := by
  unfold execWord
  split
  · exact exec_renderWrites hp _
  · rw [State.illegal, hp]
    exact nextHas_next (illegalOnRender_renderWrites s w.w0)

/-- No command touches the inputs: retiring it and ending the turn do. -/
theorem exec_sameInputs (h : exec i s = .next t) : s.SameInputs t := by
  cases hp : s.port with
  | render => exact (exec_renderWrites hp i t h).toSameInputs
  | control => exact (exec_controlWrites hp h).sameInputs

end RenderAgent

/-! ### The steps of the two agents -/

section Agents

variable {s t : State} {w : Command} {ws : List Command} {ts : List Turn} {i : Instr}

/-- A render turn outside a `RENDER` that presents a command. -/
theorem step_render_command (h : s.turns = .render :: ts) (hp : s.phase = .idle) (hr : s.renderIn = w :: ws)
    (hd : decode w = some i) (he : exec i s = .next t) : step s = .next { t with renderIn := ws, turns := ts } := by
  rw [step_render_word h hp hr, execWord_some hd, he, finishCommand, retire_endTurn_render (exec_sameInputs he) h, hr,
    List.tail_cons]

/-- A control turn that presents a command. -/
theorem step_control_command (h : s.turns = .control :: ts) (hc : s.controlIn = w :: ws) (hd : decode w = some i)
    (he : exec i s = .next t) : step s = .next { t with controlIn := ws, turns := ts } := by
  rw [step_control_word h hc, execWord_some hd, he, finishCommand, retire_endTurn_control (exec_sameInputs he) h, hc,
    List.tail_cons]

/-- Settles O4: a command always answers, and leaves the inputs to the end of its step. -/
theorem stepRunsDecodedCommand : Obligations.StepRunsDecodedCommand := by
  intro s w ws ts i hd
  obtain ⟨t, he, -⟩ := exec_answers i s
  exact ⟨fun h hp hr => ⟨t, he, step_render_command h hp hr hd he⟩,
    fun h hc => ⟨t, he, step_control_command h hc hd he⟩⟩

/-- A step of the control agent changes what a word of its port changes, presents the next word and takes the turn. -/
theorem step_control_writes (h : s.turns = .control :: ts) (hstep : step s = .next t) :
    ∃ u ws, s.ControlWrites u ∧ t = { u with controlIn := ws, turns := ts } := by
  cases step_to hstep with
  | rest ht => exact nomatch h.symm.trans ht
  | reset _ ht => exact nomatch h.symm.trans ht
  | body _ _ ht _ => exact nomatch h.symm.trans ht
  | finish _ _ ht _ => exact nomatch h.symm.trans ht
  | noWord _ _ => exact ⟨s, s.controlIn, .refl s, by rw [State.endTurn, h, List.tail_cons]⟩
  | word w u _ _ hu =>
    have hw := execWord_controlWrites (port_of_control h) w u hu
    exact ⟨u, _, hw, retire_endTurn_control hw.sameInputs h⟩

/-- A step of the render agent changes what an operation of it changes, presents the next word and takes the turn. -/
theorem step_render_writes (h : s.turns = .render :: ts) (hstep : step s = .next t) :
    ∃ u ws, s.RenderWrites u ∧ t = { u with renderIn := ws, turns := ts } := by
  have turn {u : State} (hw : s.RenderWrites u) :
      ∃ v ws, s.RenderWrites v ∧ u.endTurn = { v with renderIn := ws, turns := ts } :=
    ⟨u, u.renderIn, hw, by rw [State.endTurn, hw.turns, h, List.tail_cons]⟩
  cases step_to hstep with
  | rest ht => exact nomatch h.symm.trans ht
  | reset _ ht => exact nomatch h.symm.trans ht
  | body ns _ _ _ => exact turn (bodyStep_renderWrites s ns)
  | finish ns _ _ _ => exact turn (finishStep_renderWrites s ns)
  | noWord _ _ => exact turn (.refl s)
  | word w u _ _ hu =>
    have hw := execWord_renderWrites (port_of_render h) w u hu
    exact ⟨u, _, hw, retire_endTurn_render hw.toSameInputs h⟩

/-- Settles O15: the two agents' parts are `State.ControlWrites` and `State.RenderWrites`. -/
theorem singleWriter : Obligations.SingleWriter := by
  intro s t ts hstep
  refine ⟨fun h => ?_, fun h => ?_⟩
  · obtain ⟨u, ws, hw, rfl⟩ := step_control_writes h hstep
    refine ⟨?_, hw.evq, hw.evqOvf, hw.ctlIllegal⟩
    conv_lhs => rw [hw.rest]
  · obtain ⟨u, ws, hw, rfl⟩ := step_render_writes h hstep
    exact ⟨hw.store, hw.controlIn, hw.evq, hw.evqOvf, hw.ctlIllegal⟩

end Agents

/-! ### An edit between the body and the end step (20_memory.md R72) -/

section Edit

/-- `RMP.SETTARGET` sets the target, whatever the ramp (R157). -/
@[simp] theorem Ramp.setTarget_tgt (q : Ramp) (x : Word) : (q.setTarget x).tgt = x := by
  unfold Ramp.setTarget
  split
  · rfl
  split
  · split
    · next h => exact h.symm
    · rfl
  · rfl

/-- A tick keeps the target (R158). -/
@[simp] theorem Ramp.next_tgt (q : Ramp) : q.next.tgt = q.tgt := by
  unfold Ramp.next
  split
  · unfold Ramp.nextLinear
    split_ifs <;> rfl
  · simp only [Ramp.nextExponential]
    split_ifs <;> rfl

@[simp] theorem Ramp.ticks_tgt (n : Nat) (q : Ramp) : (Ramp.ticks n q).tgt = q.tgt := by
  induction n generalizing q with
  | zero => rfl
  | succ n ih => rw [Ramp.ticks, ih, Ramp.next_tgt]

/-- `STORE[i] <- x` replaces word `i` (R26, R227). -/
theorem store_set_words (t : Store) {i : Nat} (h : i ≤ 6) (x : Word) : (t.set i x).words = t.words.set i x := by
  match i, h with
  | 0, _ | 1, _ | 2, _ | 3, _ | 4, _ | 5, _ | 6, _ => rfl

variable {s t : State} {ns : Word}

theorem core_run_succ (h : step s = .next t) (k : Nat) : Host.Core.run core (k + 1) s = Host.Core.run core k t := by
  simp only [Host.Core.run, core, h]

/-- The body step loads the envelope parameters, renders into the slots and the buffer, and has the end step follow
(R224). -/
theorem bodyStep_rest (s : State) (ns : Word) :
    s.bodyStep ns = { s.loadEnvParams with
      voices := (s.bodyStep ns).voices, out := (s.bodyStep ns).out, phase := .finish ns } := by
  conv_lhs => rw [State.bodyStep, renderBody_rest]
  rfl

/-- The envelope parameters that a snapshot takes from the store (42_envelope.md R140). -/
theorem envSnapshot_toNat (t : Store) (fs : Word) :
    (envSnapshot t fs).alen.toNat = min (t.attack.toNat * fs.toNat / 2 ^ 16) (2 ^ 32 - 1) ∧
      (envSnapshot t fs).dlen.toNat = min (t.decay.toNat * fs.toNat / 2 ^ 16) (2 ^ 32 - 1) ∧
      (envSnapshot t fs).sus.toNat = min t.sustain.toNat (2 ^ 31) ∧
      (envSnapshot t fs).rlen.toNat = min (t.release.toNat * fs.toNat / 2 ^ 16) (2 ^ 32 - 1) :=
  ⟨samplesOf_toNat _ _, samplesOf_toNat _ _, clamp31_toNat _, samplesOf_toNat _ _⟩

@[simp] theorem finishStep_envParams (s : State) (ns : Word) : (s.finishStep ns).envParams = s.envParams := rfl

/-- The end step retargets the global ramps from the store as it stands (R225). -/
theorem finishStep_targets (s : State) (ns : Word) :
    (s.finishStep ns).grCutoff.tgt = s.store.cutoff ∧
      (s.finishStep ns).grMix.tgt.toNat = min s.store.mix.toNat (2 ^ 31) ∧
      (s.finishStep ns).grDecayRamp.tgt = s.store.decayRamp := by
  have tgt (q : Ramp) (x : Word) : (Ramp.ticks ns.toNat (q.setTarget x)).tgt = x := by simp
  exact ⟨tgt _ _, (congrArg BitVec.toNat (tgt _ _)).trans (clamp31_toNat _), tgt _ _⟩

/-- The body step leaves the end step to come, the store and the control port as they were, and the envelope
parameters as the store has them (R224). -/
theorem step_body_leaves {ts : List Turn} (h : s.turns = .render :: ts) (hp : s.phase = .body ns) :
    ∃ b, step s = .next b ∧ b.phase = .finish ns ∧ b.turns = ts ∧ b.controlIn = s.controlIn ∧ b.store = s.store ∧
      b.envParams = envSnapshot s.store s.srate := by
  have hw := bodyStep_renderWrites s ns
  have henv : (s.bodyStep ns).envParams = envSnapshot s.store s.srate := by
    rw [bodyStep_rest]
    rfl
  exact ⟨_, step_body h hp, rfl, by rw [endTurn_turns, hw.turns, h, List.tail_cons], hw.controlIn, hw.store, henv⟩

/-- A control turn that writes a word of the store, whatever stands in the block (R227). -/
theorem step_setglobal {w : Command} {ws : List Command} {ts : List Turn} {i : Half} {x : Word}
    (h : s.turns = .control :: ts) (hc : s.controlIn = w :: ws) (hd : decode w = some (.setglobal i x))
    (hi : i.toNat ≤ 6) :
    ∃ e, step s = .next e ∧ e.phase = s.phase ∧ e.turns = ts ∧ e.store = s.store.set i.toNat x ∧
      e.envParams = s.envParams := by
  have hexec := execSetglobal_control (port_of_control h) i x
  rw [if_neg (Nat.not_lt.2 hi)] at hexec
  exact ⟨_, step_control_command h hc hd hexec, rfl, rfl, rfl, rfl⟩

/-- Settles O20: the body step snapshots the store before the edit, the end step reads it after. -/
theorem editBetweenBodyAndEnd : Obligations.EditBetweenBodyAndEnd := by
  intro s ns w ws ts i x hp ht hc hd hi
  obtain ⟨b, hbody, hbp, hbt, hbc, hbs, hbe⟩ := step_body_leaves ht hp
  obtain ⟨e, hedit, hep, het, hes, hee⟩ := step_setglobal hbt (hbc.trans hc) hd hi
  have hfinish := step_finish het (hep.trans hbp)
  have henv : (e.finishStep ns).endTurn.envParams = envSnapshot s.store s.srate := by
    rw [endTurn_envParams, finishStep_envParams, hee, hbe]
  have hstore : (e.finishStep ns).endTurn.store.words = s.store.words.set i.toNat x := by
    rw [endTurn_store, (finishStep_renderWrites e ns).store, hes, hbs, store_set_words s.store hi]
  obtain ⟨halen, hdlen, hsus, hrlen⟩ := envSnapshot_toNat s.store s.srate
  refine ⟨(e.finishStep ns).endTurn, ?_, rfl, hstore, ?_⟩
  · rw [core_run_succ hbody, core_run_succ hedit, core_run_succ hfinish]
    rfl
  · rw [henv]
    exact ⟨halen, hdlen, hsus, hrlen, finishStep_targets e ns⟩

end Edit

/-! ### Event commands (20_memory.md R66, 48_engine_system.md R228) -/

section Events

variable {s t : State} {i : Instr}

theorem exec_event (e : Event) (s : State) : exec e.toInstr s = eventCommand e s := by
  obtain ⟨kind, id, a, b, c⟩ := e
  cases kind <;> rfl

/-- A prepared block that runs executes the command. -/
theorem onRender_ok (h : s.ready) : s.onRender i (.ok t) = t := by
  obtain ⟨⟨-, hrun⟩, hprep⟩ := h
  simp [State.onRender, State.settle, hrun, hprep]

/-- Settles O25: an event command is `eventCommand` of its event, a push on one port and a dispatch on the other. -/
theorem eventsArePushedOrDispatched : Obligations.EventsArePushedOrDispatched := by
  intro e s
  rw [exec_event]
  refine ⟨fun hp hroom => ?_, fun hp hfull => ?_, fun hr => ?_⟩
  · rw [eventCommand_control hp, State.evqPush, if_pos hroom]
  · rw [eventCommand_control hp, State.evqPush, if_neg (Nat.not_lt.2 hfull)]
    rfl
  · rw [eventCommand_render hr.1.1, onRender_ok hr]

end Events

/-! ### `MIX.CLEAR` (20_memory.md R62, 46_mixer.md R196) -/

section MixClear

variable {s : State} {nch ns : Word}

theorem renderArgsOk_iff : s.renderArgsOk nch ns = true ↔ nch.toNat ≤ s.build.maxCh ∧ ns.toNat ≤ s.maxblk.toNat := by
  simp [State.renderArgsOk]

theorem exec_mixClear_bad (hr : s.ready) (h : s.renderArgsOk nch ns = false) :
    exec (.mixClear nch ns) s = .next (s.raise .renderArgs (encode (.mixClear nch ns)).w0) := by
  show execMixClear nch ns s = _
  rw [execMixClear, h]
  exact renderCommand_error hr.1 fun _ => hr.2

theorem exec_mixClear_ok (hr : s.ready) (h : s.renderArgsOk nch ns = true) :
    exec (.mixClear nch ns) s = .next (s.mixClear nch ns) := by
  show execMixClear nch ns s = _
  rw [execMixClear, h]
  exact renderCommand_ok hr.1 fun _ => hr.2

/-- Settles O53: the argument check decides the case, and `readOut_clearOut` says what the clear leaves. -/
theorem mixClearSetsGeometry : Obligations.MixClearSetsGeometry := by
  intro nch ns s hr
  refine ⟨fun hbad => exec_mixClear_bad hr ?_, fun hch hns =>
    ⟨s.mixClear nch ns, exec_mixClear_ok hr (renderArgsOk_iff.2 ⟨hch, hns⟩), rfl, fun c n => ?_⟩⟩
  · rw [Bool.eq_false_iff, Ne, renderArgsOk_iff]
    omega
  · exact readOut_clearOut s.out nch.toNat ns.toNat c n

end MixClear

/-! ### What is observed of one step (70_reset_and_hazards.md R283) -/

section OneStep

variable {s t u : State} {w : Command} {ws : List Command} {ts : List Turn} {ns : Word} {i : Instr}

theorem observe_one (h : step s = .next t) : observe 1 s = ⟨s.delivery t, s.response t, t, t.faultLine⟩ := by
  rw [observe_succ h, observe_zero, List.append_nil, List.append_nil]

theorem delivery_eq_nil (h : s.turns.head? ≠ some .render ∨ ∀ ns, s.phase ≠ .finish ns) (t : State) :
    s.delivery t = [] := by
  have : s.atRenderEnd = false := by
    unfold State.atRenderEnd
    split
    · next ns ht hp => exact absurd h (by simp [ht, hp])
    · rfl
  simp [State.delivery, this]

theorem response_of_no_command (h : s.executes = none) (t : State) : s.response t = [] := by
  unfold State.response
  rw [h]
  cases s.port <;> rfl

theorem response_eq_nil
    (h : s.turns.head? ≠ some .render ∨ s.phase ≠ .idle ∨ s.renderIn.head?.bind decode = none) (t : State) :
    s.response t = [] := by
  match hs : s.turns with
  | [] => exact response_of_no_command (by simp [State.executes, hs]) t
  | .reset :: _ => exact response_of_no_command (by simp [State.executes, hs]) t
  | .control :: _ => exact response_control hs t
  | .render :: _ =>
    refine response_of_no_command ?_ t
    by_cases hp : s.phase = .idle
    · rw [executes_render hs hp]
      simpa [hs, hp] using h
    · exact executes_rendering hs hp

/-- The end step writes neither the geometry nor the buffer (R225). -/
theorem finishStep_block (s : State) (ns : Word) : (s.finishStep ns).endTurn.block = s.block := by
  have hch : (s.finishStep ns).numCh = s.numCh := rfl
  have hns : (s.finishStep ns).numSamp = s.numSamp := rfl
  have hout : (s.finishStep ns).out = s.out := rfl
  simp only [State.block, endTurn_numCh, endTurn_numSamp, endTurn_build, endTurn_out, hch, hns, hout, finishStep_build]

/-- The end step delivers the block as it stands, and no response. -/
theorem observe_finish (h : s.turns = .render :: ts) (hp : s.phase = .finish ns) :
    observe 1 s = ⟨[s.block], [], (s.finishStep ns).endTurn, s.status.halted⟩ := by
  have hexec := executes_rendering h (by rw [hp]; exact nofun)
  rw [observe_one (step_finish h hp), delivery_finish h hp, finishStep_block, response_of_no_command hexec]
  rfl

/-- The opcodes of the nine commands with an entry under "returns" in R93, other than `RDREG`. -/
def returnOpcodes : List Octet := [0x30, 0x41, 0x52, 0x53, 0x62, 0x63, 0x71, 0x92, 0x93]

/-- A word that is a `RDREG` names the register by its own fields (R91, R229). -/
theorem decode_rdreg {sel : Octet} {reg : Half} (h : decode w = some (.rdreg sel reg)) :
    w.sel = sel ∧ w.arg16 = reg := by
  unfold decode at h
  split at h <;> simp_all [formatZ, formatS, formatA, formatSA]

/-- Which commands deliver a response word, by the opcode (R93, R253). -/
theorem responds_iff (h : decode w = some i) (s t : State) :
    responds i s t = true ↔ (encode i).opcode ∈ returnOpcodes ∧ t.status.halted = false ∨
      (encode i).opcode = 0x04 ∧ (s.readReg w.sel w.arg16).isSome := by
  cases i with
  | rdreg sel reg =>
    obtain ⟨rfl, rfl⟩ := decode_rdreg h
    simp [responds, encode, returnOpcodes]
  | wtRead | oscNext | envNext | envIsactive | rmpNext | rmpGetcur | fltNext | mixRead | mixReadsat =>
    simp [responds, encode, returnOpcodes]
  | nop | prepare | render | wrcfg | setglobal | evNoteon | evNoteoff | evPressure | evPitch | evTimbre | oscSetfreq
  | oscReset | envNoteon | envNoteoff | envLoadp | rmpSettarget | rmpReset | fltCoef | fltClear | vAssign | vPressure
  | vPitch | vTimbre | vRelease | vRender | mixClear | mixAcc =>
    simp [responds, encode, returnOpcodes]

/-- A command of the render port delivers at most `RESULT`. -/
theorem observe_command (h : s.turns = .render :: ts) (hp : s.phase = .idle) (hr : s.renderIn = w :: ws)
    (hd : decode w = some i) (he : exec i s = .next t) :
    observe 1 s = ⟨[], if (encode i).opcode ∈ returnOpcodes ∧ t.status.halted = false ∨
        (encode i).opcode = 0x04 ∧ (s.readReg w.sel w.arg16).isSome then [t.result] else [],
      { t with renderIn := ws, turns := ts }, t.status.halted⟩ := by
  have hexec : s.executes = some i := by rw [executes_render h hp, hr]; exact hd
  have hresp (u : State) : s.response u = if responds i s u then [u.result] else [] := by
    rw [State.response, port_of_render h, hexec]
  rw [observe_one (step_render_command h hp hr hd he), delivery_idle hp, hresp]
  simp only [responds_iff hd, State.faultLine]

/-- What is observed of one stretch and then of the next is observed of both. -/
theorem observe_add (j k : Nat) (s : State) :
    observe (j + k) s = ⟨(observe j s).blocks ++ (observe k (observe j s).final).blocks,
      (observe j s).responses ++ (observe k (observe j s).final).responses,
      (observe k (observe j s).final).final, (observe k (observe j s).final).faultLine⟩ := by
  induction j generalizing s with
  | zero => rw [Nat.zero_add]; rfl
  | succ j ih =>
    obtain ⟨t, ht, -⟩ := step_answers s
    rw [Nat.add_right_comm, observe_succ ht, observe_succ ht, ih t]
    simp only [List.append_assoc]

end OneStep

/-! ### From a halt on (60_exceptions.md R253, R254) -/

/-- The halt of `s` stands in `t`, with its cause. -/
structure State.StaysHalted (s t : State) : Prop where
  halted : t.status.halted = true
  faultCause : t.faultCause = s.faultCause
  faultW0 : t.faultW0 = s.faultW0

section Halted

variable {s t : State}

theorem State.StaysHalted.refl (h : s.status.halted = true) : s.StaysHalted s := ⟨h, rfl, rfl⟩

theorem setCtlIllegal_staysHalted (h : s.status.halted = true) : s.StaysHalted s.setCtlIllegal := ⟨h, rfl, rfl⟩

theorem evqPush_staysHalted (h : s.status.halted = true) (e : Event) : s.StaysHalted (s.evqPush e) := by
  rcases evqPush_cases s e with ⟨-, he⟩ | ⟨-, he⟩ <;> rw [he] <;> exact ⟨h, rfl, rfl⟩

theorem retire_staysHalted (h : s.StaysHalted t) : s.StaysHalted t.retire := by
  unfold State.retire
  split <;> exact { h with }

theorem retire_turns (s : State) : s.retire.turns = s.turns := by
  unfold State.retire
  split <;> rfl

/-- A halted block accepts no command of the render port (R253 (a)). -/
theorem not_accepting (h : s.status.halted = true) {p : Prop} (ha : s.accepting) : p :=
  nomatch h.symm.trans ha.2

/-- No command ends a halt or replaces its cause (R253, R254). -/
theorem exec_staysHalted (h : s.status.halted = true) (i : Instr) : NextHas s.StaysHalted (exec i s) := by
  have same : s.StaysHalted s := .refl h
  have discarded := setCtlIllegal_staysHalted h
  cases i with
  | evNoteon | evNoteoff | evPressure | evPitch | evTimbre =>
    exact eventCommand_has same (evqPush_staysHalted h _) (not_accepting h) fun hr => not_accepting h hr.1
  | rdreg sel reg =>
    show NextHas _ (execRdreg sel reg s)
    unfold execRdreg
    split
    · exact nextHas_next discarded
    · exact nextHas_next { same with }
    · exact nextHas_next (onRender_has same (fun hh => nomatch h.symm.trans hh) fun hh => nomatch h.symm.trans hh)
  | setglobal k x =>
    show NextHas _ (execSetglobal k x s)
    unfold execSetglobal State.illegalOnRender
    split
    · rw [if_pos h]
      exact nextHas_next same
    · refine nextHas_next ?_
      split
      · exact discarded
      · exact { same with }
  | nop | prepare | render | wrcfg | wtRead | oscSetfreq | oscNext | oscReset | envNoteon | envNoteoff | envNext
  | envIsactive | envLoadp | rmpSettarget | rmpReset | rmpNext | rmpGetcur | fltCoef | fltNext | fltClear | vAssign
  | vPressure | vPitch | vTimbre | vRelease | vRender | mixClear | mixAcc | mixRead | mixReadsat =>
    exact renderCommand_has same discarded (not_accepting h) (not_accepting h)

theorem execWord_staysHalted (h : s.status.halted = true) (w : Command) :
    NextHas s.StaysHalted (execWord exec w s) := by
  unfold execWord
  split
  · exact exec_staysHalted h _
  · exact nextHas_next (illegal_has (.refl h) (setCtlIllegal_staysHalted h) (not_accepting h) w.w0)

theorem execWord_sameInputs (w : Command) : NextHas s.SameInputs (execWord exec w s) := by
  intro t h
  cases hp : s.port with
  | render => exact (execWord_renderWrites hp w t h).toSameInputs
  | control => exact (execWord_controlWrites hp w t h).sameInputs

/-- A halted block has no `RENDER` in progress (R252). -/
theorem inv_halted_idle (hi : s.Inv) (h : s.status.halted = true) : s.phase = .idle :=
  by_contra fun hp => nomatch h.symm.trans (hi.phase hp).2

/-- A step other than reset leaves a halted block halted. -/
theorem step_staysHalted (hi : s.Inv) (h : s.status.halted = true) (hr : Turn.reset ∉ s.turns)
    (hstep : step s = .next t) : s.StaysHalted t ∧ t.turns = s.turns.tail := by
  have idle := inv_halted_idle hi h
  have same : s.StaysHalted s := .refl h
  cases step_to hstep with
  | rest ht => exact ⟨same, by rw [ht, List.tail_nil]⟩
  | reset ts ht => exact absurd (by simp [ht]) hr
  | body ns _ _ hp => exact nomatch idle.symm.trans hp
  | finish ns _ _ hp => exact nomatch idle.symm.trans hp
  | noWord _ _ => exact ⟨{ same with }, rfl⟩
  | word w u _ _ hu =>
    have hu' := retire_staysHalted (execWord_staysHalted h w u hu)
    exact ⟨{ hu' with }, by rw [endTurn_turns, retire_turns, (execWord_sameInputs w u hu).turns]⟩

/-- From a halt on, as long as no reset comes, nothing is delivered and the halt stands (R283 (c)). -/
theorem observe_halted (k : Nat) (hi : s.Inv) (h : s.status.halted = true) (hr : Turn.reset ∉ s.turns) :
    (observe k s).blocks = [] ∧ (observe k s).faultLine = true ∧
      (observe k s).final.faultCause = s.faultCause ∧ (observe k s).final.faultW0 = s.faultW0 := by
  induction k generalizing s with
  | zero => exact ⟨rfl, h, rfl, rfl⟩
  | succ k ih =>
    obtain ⟨t, ht, -⟩ := step_answers s
    obtain ⟨stays, hturns⟩ := step_staysHalted hi h hr ht
    obtain ⟨hblocks, hline, hcause, hw0⟩ :=
      ih (step_inv hi t ht) stays.halted fun hm => hr (List.mem_of_mem_tail (hturns ▸ hm))
    rw [observe_succ ht]
    refine ⟨?_, hline, hcause.trans stays.faultCause, hw0.trans stays.faultW0⟩
    show s.delivery t ++ (observe k t).blocks = []
    rw [hblocks, delivery_idle (inv_halted_idle hi h), List.append_nil]

/-- Settles O60: one step's observations, by what the step is, and then the append law and the halt by induction on the
number of steps. -/
theorem runObservations : Obligations.RunObservations := by
  refine ⟨observe_add, fun s ns ts h hp => ⟨_, step_finish h hp, rfl, observe_finish h hp⟩,
    fun s t w ws ts i h hp hr hd he => observe_command h hp hr hd he, fun s h => ?_, fun s h => ?_,
    fun k s hi h hr => observe_halted k hi h hr⟩
  · obtain ⟨t, ht, -⟩ := step_answers s
    rw [observe_one ht]
    exact response_eq_nil h t
  · obtain ⟨t, ht, -⟩ := step_answers s
    rw [observe_one ht]
    exact delivery_eq_nil h t

end Halted

end Sys2Proof.Machine

/-! PROOFS of the family 30_encoding.md: the encoder and the decoder agree (R90 to R95), the decode order and the
rights of the two ports (R94, R96, R257), and the dispatch of the events to the voice operations (R205 to R211). -/

namespace Sys2Proof

/-! ### The formats of R91 on a packed word -/

section Formats

variable {op v : Octet} {a : Half} {x y z : Word}

@[simp] theorem formatZ_packW0 (i : Instr) : formatZ ⟨packW0 op 0 0, x, y, z⟩ i = some i := by
  rw [formatZ, packW0_sel, packW0_arg16, if_pos ⟨rfl, rfl⟩]

@[simp] theorem formatS_packW0 (f : Octet → Instr) : formatS ⟨packW0 op v 0, x, y, z⟩ f = some (f v) := by
  rw [formatS, packW0_sel, packW0_arg16, if_pos rfl]

@[simp] theorem formatA_packW0 (f : Half → Instr) : formatA ⟨packW0 op 0 a, x, y, z⟩ f = some (f a) := by
  rw [formatA, packW0_sel, packW0_arg16, if_pos rfl]

@[simp] theorem formatSA_packW0 (f : Octet → Half → Instr) :
    formatSA ⟨packW0 op v a, x, y, z⟩ f = some (f v a) := by
  rw [formatSA, packW0_sel, packW0_arg16]

end Formats

/-- Settles O1: the opcode picks the command's own line of `decode`, and there its format gives the fields back. -/
theorem decodeEncode : Obligations.DecodeEncode := by
  intro i
  cases i with
  | nop | prepare | render | envLoadp | fltCoef | mixClear =>
    rw [encode, decode, packW0_opcode]
    exact formatZ_packW0 _
  | envNoteon | envNoteoff | envNext | envIsactive | fltNext | fltClear | vPressure | vPitch | vTimbre | vRelease
  | vRender =>
    rw [encode, decode, packW0_opcode]
    exact formatS_packW0 _
  | wrcfg | setglobal | evNoteon | evNoteoff | evPressure | evPitch | evTimbre | mixAcc =>
    rw [encode, decode, packW0_opcode]
    exact formatA_packW0 _
  | rdreg | wtRead | oscSetfreq | oscNext | oscReset | rmpSettarget | rmpReset | rmpNext | rmpGetcur | vAssign
  | mixRead | mixReadsat =>
    rw [encode, decode, packW0_opcode]
    exact formatSA_packW0 _

/-- Settles O3: the words that stand for a command are its encoding, so `decodeEncode` decodes them. -/
theorem exampleWordsDecode : Obligations.ExampleWordsDecode :=
  ⟨decodeEncode (.prepare 48000 512 1), decodeEncode (.evNoteon 1 0x01B80000 0x8000 0), decodeEncode (.wtRead 2 64),
    decodeEncode (.rdreg 3 0x0121), decodeEncode (.vAssign 0 1 0x01B80000 0x8000 0), decodeEncode (.mixRead 1 5),
    by decide, by decide⟩

/-! ### The lines of the decoder, by format (30_encoding.md R91, R93)

For each format: `decode` reads a word with such an opcode by that format, and the command it gives has the opcode and
the used fields of the word. -/

/-- The opcodes of format Z. -/
def opcodesZ : List Octet := [0x00, 0x01, 0x02, 0x54, 0x70, 0x90]

/-- The opcodes of format S. -/
def opcodesS : List Octet := [0x50, 0x51, 0x52, 0x53, 0x71, 0x72, 0x81, 0x82, 0x83, 0x84, 0x85]

/-- The opcodes of format A. -/
def opcodesA : List Octet := [0x03, 0x10, 0x20, 0x21, 0x22, 0x23, 0x24, 0x91]

/-- The opcodes of format SA. -/
def opcodesSA : List Octet := [0x04, 0x30, 0x40, 0x41, 0x42, 0x60, 0x61, 0x62, 0x63, 0x80, 0x92, 0x93]

section Lines

variable {w : Command} {i : Instr}

theorem decode_of_mem_opcodesZ (h : w.opcode ∈ opcodesZ) :
    ∃ i, decode w = formatZ w i ∧ (encode i).w0 = packW0 w.opcode 0 0 := by
  simp only [opcodesZ, List.mem_cons, List.not_mem_nil, or_false] at h
  rcases h with h | h | h | h | h | h <;> rw [decode, h] <;> exact ⟨_, rfl, rfl⟩

theorem decode_of_mem_opcodesS (h : w.opcode ∈ opcodesS) :
    ∃ f, decode w = formatS w f ∧ ∀ v, (encode (f v)).w0 = packW0 w.opcode v 0 := by
  simp only [opcodesS, List.mem_cons, List.not_mem_nil, or_false] at h
  rcases h with h | h | h | h | h | h | h | h | h | h | h <;> rw [decode, h] <;> exact ⟨_, rfl, fun _ => rfl⟩

theorem decode_of_mem_opcodesA (h : w.opcode ∈ opcodesA) :
    ∃ f, decode w = formatA w f ∧ ∀ a, (encode (f a)).w0 = packW0 w.opcode 0 a := by
  simp only [opcodesA, List.mem_cons, List.not_mem_nil, or_false] at h
  rcases h with h | h | h | h | h | h | h | h <;> rw [decode, h] <;> exact ⟨_, rfl, fun _ => rfl⟩

theorem decode_of_mem_opcodesSA (h : w.opcode ∈ opcodesSA) :
    ∃ f, decode w = formatSA w f ∧ ∀ v a, (encode (f v a)).w0 = packW0 w.opcode v a := by
  simp only [opcodesSA, List.mem_cons, List.not_mem_nil, or_false] at h
  rcases h with h | h | h | h | h | h | h | h | h | h | h | h <;> rw [decode, h] <;> exact ⟨_, rfl, fun _ _ => rfl⟩

/-- Every other opcode is reserved (R95). -/
theorem mem_opcodes_of_decode (h : decode w = some i) :
    w.opcode ∈ opcodesZ ∨ w.opcode ∈ opcodesS ∨ w.opcode ∈ opcodesA ∨ w.opcode ∈ opcodesSA := by
  unfold decode at h
  split at h <;> simp [*, opcodesZ, opcodesS, opcodesA, opcodesSA] at h ⊢

/-- A word that is a command has the first word of that command's encoding. -/
theorem encode_w0_of_decode (h : decode w = some i) : (encode i).w0 = w.w0 := by
  rw [← packW0_fields w]
  rcases mem_opcodes_of_decode h with hop | hop | hop | hop
  · obtain ⟨j, hd, he⟩ := decode_of_mem_opcodesZ hop
    rw [hd, formatZ, Option.ite_none_right_eq_some] at h
    obtain ⟨⟨hsel, harg⟩, ⟨⟩⟩ := h
    rw [he, hsel, harg]
  · obtain ⟨f, hd, he⟩ := decode_of_mem_opcodesS hop
    rw [hd, formatS, Option.ite_none_right_eq_some] at h
    obtain ⟨harg, ⟨⟩⟩ := h
    rw [he, harg]
  · obtain ⟨f, hd, he⟩ := decode_of_mem_opcodesA hop
    rw [hd, formatA, Option.ite_none_right_eq_some] at h
    obtain ⟨hsel, ⟨⟩⟩ := h
    rw [he, hsel]
  · obtain ⟨f, hd, he⟩ := decode_of_mem_opcodesSA hop
    cases hd.symm.trans h
    exact he _ _

end Lines

/-! ### Events keep the whole word (10_state.md R38, 48_engine_system.md R228) -/

/-- A command that both ports execute is an event. -/
theorem exists_toInstr_of_ports {i : Instr} (h : i.ports = [.control, .render]) : ∃ e : Event, e.toInstr = i := by
  cases i with
  | evNoteon id f p tb => exact ⟨⟨.noteOn, id, f, p, tb⟩, rfl⟩
  | evNoteoff id a b c => exact ⟨⟨.noteOff, id, a, b, c⟩, rfl⟩
  | evPressure id x b c => exact ⟨⟨.pressure, id, x, b, c⟩, rfl⟩
  | evPitch id f b c => exact ⟨⟨.pitch, id, f, b, c⟩, rfl⟩
  | evTimbre id x b c => exact ⟨⟨.timbre, id, x, b, c⟩, rfl⟩
  | _ => exact nomatch h

/-- Any three operand words after the first word of an event are those of an event. -/
theorem encode_toInstr_operands (e : Event) (x y z : Word) :
    (⟨(encode e.toInstr).w0, x, y, z⟩ : Command) = encode (Event.toInstr { e with a := x, b := y, c := z }) := by
  obtain ⟨kind, id, a, b, c⟩ := e
  cases kind <;> rfl

theorem toInstr_injective : Function.Injective Event.toInstr := by
  rintro ⟨kind, id, a, b, c⟩ ⟨kind', id', a', b', c'⟩ h
  cases kind <;> cases kind' <;> cases h <;> rfl

/-- A word that is an event is that event's encoding: its operand words are those it is the encoding of. -/
theorem encode_toInstr_of_decode {w : Command} {e : Event} (h : decode w = some e.toInstr) : encode e.toInstr = w := by
  have hw : w = encode (Event.toInstr { e with a := w.w1, b := w.w2, c := w.w3 }) := by
    rw [← encode_toInstr_operands, encode_w0_of_decode h]
  rw [hw, decodeEncode] at h
  rw [hw, Option.some.inj h]

/-! ### The rows of the opcode map (30_encoding.md R91, R93) -/

section Rows

open Sys2Proof.Machine Sys2Proof.Laws

/-- The first word of every command selects its row. -/
theorem encode_fits : ∀ i : Instr, Fits.Statement i
  | .nop => Fits.nop
  | .prepare .. => Fits.prepare ..
  | .render .. => Fits.render ..
  | .wrcfg .. => Fits.wrcfg ..
  | .rdreg .. => Fits.rdreg ..
  | .setglobal .. => Fits.setglobal ..
  | .evNoteon .. => Fits.evNoteon ..
  | .evNoteoff .. => Fits.evNoteoff ..
  | .evPressure .. => Fits.evPressure ..
  | .evPitch .. => Fits.evPitch ..
  | .evTimbre .. => Fits.evTimbre ..
  | .wtRead .. => Fits.wtRead ..
  | .oscSetfreq .. => Fits.oscSetfreq ..
  | .oscNext .. => Fits.oscNext ..
  | .oscReset .. => Fits.oscReset ..
  | .envNoteon .. => Fits.envNoteon ..
  | .envNoteoff .. => Fits.envNoteoff ..
  | .envNext .. => Fits.envNext ..
  | .envIsactive .. => Fits.envIsactive ..
  | .envLoadp => Fits.envLoadp
  | .rmpSettarget .. => Fits.rmpSettarget ..
  | .rmpReset .. => Fits.rmpReset ..
  | .rmpNext .. => Fits.rmpNext ..
  | .rmpGetcur .. => Fits.rmpGetcur ..
  | .fltCoef .. => Fits.fltCoef ..
  | .fltNext .. => Fits.fltNext ..
  | .fltClear .. => Fits.fltClear ..
  | .vAssign .. => Fits.vAssign ..
  | .vPressure .. => Fits.vPressure ..
  | .vPitch .. => Fits.vPitch ..
  | .vTimbre .. => Fits.vTimbre ..
  | .vRelease .. => Fits.vRelease ..
  | .vRender .. => Fits.vRender ..
  | .mixClear .. => Fits.mixClear ..
  | .mixAcc .. => Fits.mixAcc ..
  | .mixRead .. => Fits.mixRead ..
  | .mixReadsat .. => Fits.mixReadsat ..

/-- The rows of the opcodes `ops`, whose format has the mask `mask`. -/
def rowsOf (ops : List Octet) (mask : Word) : List (Word × Word) := ops.map fun op => (packW0 op 0 0, mask)

/-- Every row is that of an opcode, with the mask of its format. -/
theorem opcodeRows_subset :
    opcodeRows ⊆ rowsOf opcodesZ 0xFFFFFFFF ++ rowsOf opcodesS 0xFF00FFFF ++ rowsOf opcodesA 0xFFFF0000 ++
      rowsOf opcodesSA 0xFF000000 := by
  decide +kernel

variable {w : Command}

/-- A field that a mask keeps whole. -/
theorem eq_of_and_allOnes {n : Nat} {x y m : BitVec n} (h : x &&& m = y) (hm : m = BitVec.allOnes n) : x = y := by
  rwa [hm, BitVec.and_allOnes] at h

/-- What a match says of each field: the opcode is the row's, and the bits of `sel` and `arg16` that the mask keeps are
zero. -/
theorem fields_of_match {ops : List Octet} {mask : Word} {row : Word × Word} (hr : row ∈ rowsOf ops mask)
    (hm : mask.extractLsb' 24 8 = BitVec.allOnes 8) (h : w.w0 &&& row.2 = row.1) :
    w.opcode ∈ ops ∧ w.sel &&& mask.extractLsb' 16 8 = 0 ∧ w.arg16 &&& mask.extractLsb' 0 16 = 0 := by
  obtain ⟨op, hop, rfl⟩ := List.mem_map.1 hr
  have hopcode : Command.opcode ⟨w.w0 &&& mask, 0, 0, 0⟩ = op := by rw [h, packW0_opcode]
  have hsel : Command.sel ⟨w.w0 &&& mask, 0, 0, 0⟩ = 0 := by rw [h, packW0_sel]
  have harg : Command.arg16 ⟨w.w0 &&& mask, 0, 0, 0⟩ = 0 := by rw [h, packW0_arg16]
  have hw : w.opcode = op := eq_of_and_allOnes (BitVec.extractLsb'_and.symm.trans hopcode) hm
  exact ⟨hw ▸ hop, BitVec.extractLsb'_and.symm.trans hsel, BitVec.extractLsb'_and.symm.trans harg⟩

/-- A word that selects a row is a command: the row has the opcode of the word, and the fields that the format leaves
unused are zero. -/
theorem decode_of_row {row : Word × Word} (hr : row ∈ opcodeRows) (h : w.w0 &&& row.2 = row.1) :
    ∃ i, decode w = some i := by
  have hrows := opcodeRows_subset hr
  simp only [List.mem_append] at hrows
  obtain ((hf | hf) | hf) | hf := hrows
  · obtain ⟨hop, hsel, harg⟩ := fields_of_match hf rfl h
    obtain ⟨i, hd, -⟩ := decode_of_mem_opcodesZ hop
    exact ⟨_, hd.trans (if_pos ⟨eq_of_and_allOnes hsel rfl, eq_of_and_allOnes harg rfl⟩)⟩
  · obtain ⟨hop, -, harg⟩ := fields_of_match hf rfl h
    obtain ⟨f, hd, -⟩ := decode_of_mem_opcodesS hop
    exact ⟨_, hd.trans (if_pos (eq_of_and_allOnes harg rfl))⟩
  · obtain ⟨hop, hsel, -⟩ := fields_of_match hf rfl h
    obtain ⟨f, hd, -⟩ := decode_of_mem_opcodesA hop
    exact ⟨_, hd.trans (if_pos (eq_of_and_allOnes hsel rfl))⟩
  · obtain ⟨hop, -, -⟩ := fields_of_match hf rfl h
    obtain ⟨f, hd, -⟩ := decode_of_mem_opcodesSA hop
    exact ⟨_, hd⟩

/-- Settles O2: `encode_fits` gives the row of a command, `decode_of_row` the command of a row. -/
theorem decodeSelectsRow : Obligations.DecodeSelectsRow := by
  refine fun w => ⟨⟨fun ⟨i, h⟩ => ?_, fun ⟨row, hr, h⟩ => decode_of_row hr h⟩, fun i h =>
    ⟨encode_w0_of_decode h, fun hp => ?_⟩⟩
  · obtain ⟨row, hr, hrow, -⟩ := encode_fits i
    exact ⟨row, hr, encode_w0_of_decode h ▸ hrow⟩
  · obtain ⟨e, rfl⟩ := exists_toInstr_of_ports hp
    exact encode_toInstr_of_decode h

end Rows
end Sys2Proof


namespace Sys2Proof.Machine

/-! ### A word that is no command (30_encoding.md R94, R95, R96) -/

section Illegal

variable {s : State} {w : Command} {ws : List Command} {ts : List Turn}

theorem execWord_none (h : decode w = none) : execWord exec w s = .next (s.illegal w.w0) := by
  rw [execWord, h]

theorem illegal_render (h : s.port = .render) (w0 : Word) : s.illegal w0 = s.illegalOnRender w0 := by
  rw [State.illegal, h]

theorem illegal_control (h : s.port = .control) (w0 : Word) : s.illegal w0 = s.setCtlIllegal := by
  rw [State.illegal, h]

/-- Settles O5: the step is `State.illegal` on the port of the turn, after which the word is retired. -/
theorem illegalWords : Obligations.IllegalWords := by
  refine fun s w ws ts hd => ⟨fun h hp hr => ?_, fun h hc => ?_⟩
  · rw [step_render_word h hp hr, execWord_none hd, illegal_render (port_of_render h), finishCommand,
      retire_endTurn_render (illegalOnRender_renderWrites s w.w0).toSameInputs h, hr]
    rfl
  · rw [step_control_word h hc, execWord_none hd, illegal_control (port_of_control h), finishCommand,
      retire_endTurn_control (setCtlIllegal_controlWrites s).sameInputs h, hc]
    rfl

end Illegal

/-! ### The four kinds of command (30_encoding.md R93, R94, R96) -/

section Kinds

variable {i : Instr} {s : State}

/-- Every command is an event, `SETGLOBAL`, `RDREG`, or one of the render port whose own rule only gives the effect in
the decode order of R94. -/
theorem exec_kinds (i : Instr) :
    (∃ e : Event, e.toInstr = i) ∨ (∃ k x, i = .setglobal k x) ∨ (∃ sel reg, i = .rdreg sel reg) ∨
      ∀ s, ∃ e, exec i s = renderCommand i s e := by
  cases i with
  | evNoteon | evNoteoff | evPressure | evPitch | evTimbre => exact .inl (exists_toInstr_of_ports rfl)
  | setglobal k x => exact .inr (.inl ⟨k, x, rfl⟩)
  | rdreg sel reg => exact .inr (.inr (.inl ⟨sel, reg, rfl⟩))
  | _ => exact .inr (.inr (.inr fun s => ⟨_, rfl⟩))

/-- An event on the render port, in the decode order of R94. -/
theorem exec_event_render (hp : s.port = .render) (e : Event) :
    exec e.toInstr s = .next (s.onRender e.toInstr (.ok (s.dispatch e))) := by
  rw [exec_event, eventCommand_render hp]

/-- `SETGLOBAL` is illegal on the render port (R227, R257). -/
theorem exec_setglobal_render (hp : s.port = .render) (k : Half) (x : Word) :
    exec (.setglobal k x) s = .next (s.illegalOnRender (encode (.setglobal k x)).w0) := by
  show execSetglobal k x s = _
  rw [execSetglobal, hp]

/-- The opcodes of the events. -/
theorem encode_toInstr_opcode (e : Event) : (encode e.toInstr).opcode ∈ [0x20#8, 0x21#8, 0x22#8, 0x23#8, 0x24#8] := by
  obtain ⟨kind, id, a, b, c⟩ := e
  cases kind <;> simp [Event.toInstr, encode]

theorem needsPrepared_toInstr (e : Event) : needsPrepared e.toInstr = true := by
  obtain ⟨kind, id, a, b, c⟩ := e
  cases kind <;> rfl

/-! ### The decode order before `PREPARE` and while halted (30_encoding.md R94, 60_exceptions.md R253) -/

/-- A command that needs `PREPARED` raises `F_NOT_PREPARED` without it, whatever its operands (R94 step 3). -/
theorem exec_notPrepared (h : s.accepting) (hn : needsPrepared i = true) (hp : s.status.prepared = false) :
    exec i s = .next (s.raise .notPrepared (encode i).w0) := by
  rcases exec_kinds i with ⟨e, rfl⟩ | ⟨k, x, rfl⟩ | ⟨sel, reg, rfl⟩ | hi
  · rw [exec_event_render h.1, State.onRender, h.2, hn, hp]
    rfl
  · exact nomatch hn
  · exact nomatch hn
  · obtain ⟨e, he⟩ := hi s
    rw [he, renderCommand_notPrepared h hn hp]

/-- The "needs P" column of R93, by opcode. -/
theorem needsPrepared_of_opcode (h : (encode i).opcode ∉ [0x00#8, 0x01#8, 0x03#8, 0x04#8, 0x10#8, 0x30#8]) :
    needsPrepared i = true := by
  cases i with
  | nop | prepare | wrcfg | rdreg | setglobal | wtRead => exact absurd (by simp [encode]) h
  | _ => rfl

/-- Settles O10: the six opcodes are those of the commands that do not need `PREPARED`. -/
theorem unpreparedFaults : Obligations.UnpreparedFaults :=
  fun _ _ h hp hop => exec_notPrepared h (needsPrepared_of_opcode hop) hp

/-- While the block is halted the render port ignores every command but a `RDREG` (R94 step 1, R253). -/
theorem exec_halted (hp : s.port = .render) (hh : s.status.halted = true) (hi : ∀ sel reg, i ≠ .rdreg sel reg) :
    exec i s = .next s := by
  rcases exec_kinds i with ⟨e, rfl⟩ | ⟨k, x, rfl⟩ | ⟨sel, reg, rfl⟩ | hi
  · rw [exec_event_render hp, State.onRender, if_pos hh]
  · rw [exec_setglobal_render hp, State.illegalOnRender, if_pos hh]
  · exact absurd rfl (hi sel reg)
  · obtain ⟨e, he⟩ := hi s
    rw [he, renderCommand_halted hp hh]

/-- A halted `RDREG` writes `RESULT` or nothing (R253 (b)). -/
theorem exec_rdreg_halted (hp : s.port = .render) (hh : s.status.halted = true) (sel : Octet) (reg : Half) :
    ∃ x, exec (.rdreg sel reg) s = .next { s with result := x } := by
  cases hr : s.readReg sel reg with
  | some x => exact ⟨x, exec_rdreg_some hp hr⟩
  | none =>
    refine ⟨s.result, ?_⟩
    rw [exec_rdreg_none hp hr, if_pos hh]

/-- Settles O11: `RDREG` is the only command that is not ignored. -/
theorem haltedIgnoresCommands : Obligations.HaltedIgnoresCommands := by
  intro i s hp hh
  by_cases hi : ∃ sel reg, i = .rdreg sel reg
  · obtain ⟨sel, reg, rfl⟩ := hi
    have hop : (encode (.rdreg sel reg)).opcode = 0x04 := packW0_opcode 0x04 sel reg 0 0 0
    exact ⟨fun h => absurd hop h, fun _ => exec_rdreg_halted hp hh sel reg⟩
  · have same : exec i s = .next s := exec_halted hp hh fun sel reg h => hi ⟨sel, reg, h⟩
    exact ⟨fun _ => same, fun _ => ⟨s.result, same⟩⟩

/-! ### Port rights (60_exceptions.md R257) -/

/-- The control port discards every command that is neither an event nor `SETGLOBAL` (R96). -/
theorem exec_discarded (hp : s.port = .control)
    (h : (encode i).opcode ∉ [0x10#8, 0x20#8, 0x21#8, 0x22#8, 0x23#8, 0x24#8]) :
    exec i s = .next s.setCtlIllegal := by
  rcases exec_kinds i with ⟨e, rfl⟩ | ⟨k, x, rfl⟩ | ⟨sel, reg, rfl⟩ | hi
  · exact absurd (List.mem_cons_of_mem _ (encode_toInstr_opcode e)) h
  · exact absurd (by simp [encode]) h
  · exact execRdreg_control hp sel reg
  · obtain ⟨e, he⟩ := hi s
    rw [he, renderCommand_control hp]

/-- Settles O13: what each port denies. -/
theorem portRightsDeny : Obligations.PortRightsDeny := by
  refine ⟨fun i s hp h => exec_discarded hp h, fun k x s ha => ?_⟩
  rw [exec_setglobal_render ha.1, State.illegalOnRender, ha.2]
  rfl

end Kinds

end Sys2Proof.Machine


namespace Sys2Proof.Machine

/-! ### A voice command in a prepared block that runs (30_encoding.md R92, R94) -/

section VoiceCommands

variable {i : Instr} {v : Octet} {s t : State}

/-- A voice operand in range: the command has its effect. -/
theorem voiceCommand_ok (hr : s.ready) (hv : v.toNat < s.poly.toNat) :
    renderCommand i s (if !s.voiceOk v then .error .badIndex else .ok t) = .next t := by
  have hok : s.voiceOk v = true := decide_eq_true hv
  rw [hok]
  exact renderCommand_ok hr.1 fun _ => hr.2

/-- A voice operand out of range. -/
theorem voiceCommand_bad {e : Effect} (hr : s.ready) (hv : s.poly.toNat ≤ v.toNat) :
    renderCommand i s (if !s.voiceOk v then .error .badIndex else e) = .next (s.raise .badIndex (encode i).w0) := by
  have hbad : s.voiceOk v = false := decide_eq_false (Nat.not_lt.2 hv)
  rw [hbad]
  exact renderCommand_error hr.1 fun _ => hr.2

theorem exec_vAssign_ok (hr : s.ready) (hv : v.toNat < s.poly.toNat) (id : Half) (f p tb : Word) :
    exec (.vAssign v id f p tb) s = .next (s.assignVoice v.toNat id f p tb) :=
  voiceCommand_ok hr hv

/-- An identifier is recorded modulo 2^`NOTE_ID_W` (R91; log 12). -/
theorem noteId_toNat (b : Config.Build) (id : Half) : (b.noteId id).toNat = id.toNat % 2 ^ b.noteIdW :=
  toNat_ofNat_of_lt (Nat.lt_of_le_of_lt (Nat.mod_le _ _) id.isLt)

/-- Settles O47: the operation is `Voice.assign` on the one slot, with the operands narrowed first. -/
theorem vAssignGivesNote : Obligations.VAssignGivesNote := by
  refine fun v id f p tb s hr hbuilt => ⟨fun hv => voiceCommand_bad hr hv, fun hv => ?_⟩
  have slot : (s.assignVoice v.toNat id f p tb).voice v.toNat =
      (s.voice v.toNat).assign s.assignSeq (s.build.noteId id) f p tb := by
    rw [voice_assignVoice, if_pos ⟨rfl, Nat.lt_of_lt_of_le hv hbuilt⟩]
  have others (w : Nat) (hw : w ≠ v.toNat) : (s.assignVoice v.toNat id f p tb).voice w = s.voice w := by
    rw [voice_assignVoice, if_neg fun h => hw h.1.symm]
  have length : (s.assignVoice v.toNat id f p tb).voices.length = s.voices.length := by
    rw [assignVoice_voices, List.length_set]
  have seq : (s.assignSeq + 1).toNat = (s.assignSeq.toNat + 1) % 2 ^ 32 := BitVec.toNat_add _ _
  have target (x : Word) : (clamp15Target x).toNat = min (x.toNat % 2 ^ 16) 0x8000 * 2 ^ 16 :=
    (clamp15Target_toNat x).trans (Nat.mul_comm _ _)
  exact ⟨s.assignVoice v.toNat id f p tb, clamp15Target p, clamp15Target tb, s.build.noteId id,
    exec_vAssign_ok hr hv id f p tb, rfl, length, noteId_toNat s.build id, seq, others,
    target p, target tb, slot⟩

end VoiceCommands

/-! ### The slot that an event reaches (47_events_allocator.md R205, R206, R211) -/

section Allocator

variable {s : State} {id : Half} {v : Nat}

theorem holds_lt (h : s.holds v id = true) : v < s.poly.toNat := by
  simp only [State.holds, Bool.and_eq_true, decide_eq_true_eq] at h
  exact h.1.1

/-- `Find` gives the lowest slot that holds the identifier, in a block that has built the slots in use (R205). -/
theorem find_of_lowest (hbuilt : s.poly.toNat ≤ s.voices.length) (h : s.holds v id = true)
    (hlow : ∀ w, w < v → s.holds w id = false) : s.find id = some v :=
  (find_eq_some s id v).2 ⟨Nat.lt_of_lt_of_le (holds_lt h) hbuilt, h, fun w hw _ => hlow w hw⟩

theorem find_of_none (h : ∀ w, s.holds w id = false) : s.find id = none :=
  (find_eq_none s id).2 fun w _ => h w

/-- The victim is the one slot with the smallest key, the lowest of those that tie (R211). -/
theorem victim_of_least (hi : s.Inv) (hp : s.status.prepared = true) (hv : v < s.poly.toNat)
    (hmin : ∀ w, w < s.poly.toNat → s.stealKey v ≤ s.stealKey w)
    (hlow : ∀ w, w < v → s.stealKey v < s.stealKey w) : s.victim = v := by
  obtain ⟨hbuilt, hpoly⟩ := inv_hasVoice hi hp
  obtain ⟨-, hu, hminu, hlowu⟩ := victim_spec s hbuilt hpoly
  have hvb : v < s.voices.length := hi.slots ▸ Nat.lt_of_lt_of_le hv hi.poly
  rcases Nat.lt_trichotomy s.victim v with h | h | h
  · exact absurd (hlow _ h) (Nat.not_lt.2 (hminu v hvb hv))
  · exact h
  · exact absurd (hlowu v h) (Nat.not_lt.2 (hmin _ hu))

end Allocator

/-! ### `EV.NOTEON` (47_events_allocator.md R206) -/

section NoteOn

variable {s : State} {id : Half} {v : Nat}

/-- An event on the render port of a prepared block that runs is dispatched. -/
theorem exec_event_ready (hr : s.ready) (e : Event) : exec e.toInstr s = .next (s.dispatch e) :=
  (eventsArePushedOrDispatched e s).2.2 hr

theorem dispatchNoteOn_holder (h : s.find id = some v) (f p tb : Word) :
    s.dispatchNoteOn id f p tb = s.assignVoice v id f p tb := by
  rw [State.dispatchNoteOn, h]

theorem dispatchNoteOn_free (h : s.find id = none) (hf : s.findFree = some v) (f p tb : Word) :
    s.dispatchNoteOn id f p tb = s.assignVoice v id f p tb := by
  rw [State.dispatchNoteOn, h, hf]

theorem dispatchNoteOn_full (h : s.find id = none) (hf : s.findFree = none) (f p tb : Word) :
    s.dispatchNoteOn id f p tb = if s.stealEn then s.assignVoice s.victim id f p tb else s.setNoteDropped := by
  rw [State.dispatchNoteOn, h, hf]

/-- Settles O26: each clause fixes what `Find`, the search for a Free slot and the victim are. -/
theorem noteOnAllocates : Obligations.NoteOnAllocates := by
  intro id f p tb v s hr hi assigns key
  have hbuilt : s.poly.toNat ≤ s.voices.length := hi.slots ▸ hi.poly
  have dispatched : exec (.evNoteon id f p tb) s = .next (s.dispatchNoteOn id f p tb) :=
    exec_event_ready hr ⟨.noteOn, id, f, p, tb⟩
  have assigned (hv : v.toNat < s.poly.toNat)
      (h : s.dispatchNoteOn id f p tb = s.assignVoice v.toNat id f p tb) : assigns :=
    ⟨_, dispatched.trans (by rw [h]), exec_vAssign_ok hr hv id f p tb⟩
  refine ⟨fun hh hlow => ?_, fun hnone =>
    ⟨fun hv hfree hlow => ?_, fun hfull => ⟨fun hoff => ?_, fun hon hv hmin hlow => ?_⟩⟩⟩
  · exact assigned (holds_lt hh) (dispatchNoteOn_holder (find_of_lowest hbuilt hh hlow) f p tb)
  · have hfirst : s.findFree = some v.toNat :=
      (findFree_eq_some s v.toNat).2 ⟨Nat.lt_of_lt_of_le hv hbuilt, hv, hfree, hlow⟩
    exact assigned hv (dispatchNoteOn_free (find_of_none hnone) hfirst f p tb)
  · have hno : s.findFree = none := (findFree_eq_none s).2 fun w _ => hfull w
    rw [dispatched, dispatchNoteOn_full (find_of_none hnone) hno, State.stealEn, hoff]
    rfl
  · have hno : s.findFree = none := (findFree_eq_none s).2 fun w _ => hfull w
    refine assigned hv ?_
    rw [dispatchNoteOn_full (find_of_none hnone) hno, State.stealEn, hon,
      victim_of_least hi hr.2 hv hmin hlow, if_pos rfl]

end NoteOn

/-! ### The other four events (47_events_allocator.md R207 to R210) -/

section OtherEvents

variable {s : State} {id : Half} {v : Octet} {g : Voice → Voice} {iv : Instr} {e : Event}

theorem onHolder_some {v : Nat} (h : s.find id = some v) (g : Voice → Voice) : s.onHolder id g = s.updVoice v g := by
  rw [State.onHolder, h]

theorem onHolder_none (h : s.find id = none) (g : Voice → Voice) : s.onHolder id g = s := by
  rw [State.onHolder, h]

/-- An event whose dispatch is `g` on the holder and the voice command of the same operation do the same there. -/
theorem event_voiceCommand (hr : s.ready) (hbuilt : s.poly.toNat ≤ s.voices.length) (h : s.holds v.toNat id = true)
    (hlow : ∀ w, w < v.toNat → s.holds w id = false) (he : s.dispatch e = s.onHolder id g) :
    ∃ t, exec e.toInstr s = .next t ∧
      renderCommand iv s (if !s.voiceOk v then .error .badIndex else .ok (s.updVoice v.toNat g)) = .next t :=
  ⟨s.updVoice v.toNat g, by rw [exec_event_ready hr, he, onHolder_some (find_of_lowest hbuilt h hlow)],
    voiceCommand_ok hr (holds_lt h)⟩

/-- Such an event does nothing where no slot holds the identifier. -/
theorem exec_event_noHolder (hr : s.ready) (hnone : ∀ w, s.holds w id = false) (he : s.dispatch e = s.onHolder id g) :
    exec e.toInstr s = .next s := by
  rw [exec_event_ready hr, he, onHolder_none (find_of_none hnone)]

/-- Settles O27: each of the four events is its voice operation on the holder. -/
theorem otherEventsReachTheHolder : Obligations.OtherEventsReachTheHolder := by
  intro id a b c v s hr hbuilt
  have off : s.dispatch ⟨.noteOff, id, a, b, c⟩ = s.onHolder id Voice.release := rfl
  have pressure : s.dispatch ⟨.pressure, id, a, b, c⟩ = s.onHolder id fun y => y.setPressure a := rfl
  have pitch : s.dispatch ⟨.pitch, id, a, b, c⟩ = s.onHolder id fun y => y.setPitch a := rfl
  have timbre : s.dispatch ⟨.timbre, id, a, b, c⟩ = s.onHolder id fun y => y.setTimbre a := rfl
  refine ⟨fun h hlow => ?_, fun hnone => ?_⟩
  · exact ⟨event_voiceCommand hr hbuilt h hlow off, event_voiceCommand hr hbuilt h hlow pressure,
      event_voiceCommand hr hbuilt h hlow pitch, event_voiceCommand hr hbuilt h hlow timbre⟩
  · exact ⟨exec_event_noHolder hr hnone off, exec_event_noHolder hr hnone pressure,
      exec_event_noHolder hr hnone pitch, exec_event_noHolder hr hnone timbre⟩

end OtherEvents

end Sys2Proof.Machine


/-! PROOFS of the family 40_wavetable.md: the contents of the bank (R122 to R124) and `WT.READ` (R125). -/

namespace Sys2Proof.Machine

section Wavetable

/-! ### The contents of the bank (40_wavetable.md R120 to R124) -/

section Bank

variable {b : Config.Build} {k : Nat}

theorem wt_of_lt (h : k < b.tableLen) (t : Nat) : wt b t k = waveSample b t k := if_pos h

theorem wt_of_le (h : b.tableLen ≤ k) (t : Nat) : wt b t k = waveSample b t 0 := if_neg (Nat.not_lt.2 h)

theorem wt_sawtooth (h : k < b.tableLen) : wt b 0 k = sawtooth b k := wt_of_lt h 0

theorem wt_square (h : k < b.tableLen) : wt b 1 k = square b k := wt_of_lt h 1

theorem wt_sine (h : k < b.tableLen) : wt b 2 k = b.sine.getD k 0 := wt_of_lt h 2

/-- The guard sample of every table is its sample 0 (R124). -/
theorem wt_guard (b : Config.Build) (t : Nat) : wt b t b.tableLen = wt b t 0 :=
  (wt_of_le (Nat.le_refl _) t).trans (wt_of_lt (Nat.two_pow_pos _) t).symm

/-- The sine table of a legal build is that of the formula (R123). -/
theorem wt_sine_nearest (hb : b.Legal) (h : k < b.tableLen) :
    Config.Nearest (wt b 2 k) (b.sineAmp * Real.sin (2 * Real.pi * k / b.tableLen)) := by
  rw [wt_sine h]
  exact hb.sine.2 k h

/-- The data of the sine table and its length fix the samples, the guard sample among them. -/
theorem wt_sine_congr {c : Config.Build} (hlen : b.tableLen = c.tableLen)
    (hsine : ∀ k, b.sine.getD k 0 = c.sine.getD k 0) (k : Nat) : wt b 2 k = wt c 2 k := by
  by_cases h : k < b.tableLen
  · rw [wt_sine h, wt_sine (hlen ▸ h), hsine]
  · have h' : b.tableLen ≤ k := Nat.not_lt.1 h
    rw [wt_of_le h', wt_of_le (hlen ▸ h')]
    exact hsine 0

/-- For N = 256 and S = 32767 every legal build has the sine table of the default one (R123). -/
theorem wt_sine_eq_built (hb : b.Legal) (hN : b.tableLog2 = 8) (hS : b.sineAmp = 32767) (k : Nat) :
    wt b 2 k = wt Config.built 2 k :=
  wt_sine_congr (congrArg (2 ^ ·) hN) (hb.sine_eq_built hN hS) k

end Bank

/-! ### `WT.READ` (40_wavetable.md R125) -/

section Read

variable {t : Octet} {i : Half} {s : State}

/-- An index outside the bank, in a block that may not be prepared. -/
theorem exec_wtRead_bad (h : s.accepting) (hbad : 2 < t.toNat ∨ s.build.tableLen < i.toNat) :
    exec (.wtRead t i) s = .next (s.raise .badIndex (encode (.wtRead t i)).w0) := by
  show execWtRead t i s = _
  rw [execWtRead, if_pos hbad]
  exact renderCommand_error h nofun

/-- An index of the bank, the guard sample's among them. -/
theorem exec_wtRead_ok (h : s.accepting) (ht : t.toNat ≤ 2) (hi : i.toNat ≤ s.build.tableLen) :
    exec (.wtRead t i) s = .next (s.setResult (wordOfInt (wt s.build t.toNat i.toNat))) := by
  show execWtRead t i s = _
  rw [execWtRead, if_neg (by omega)]
  exact renderCommand_ok h nofun

/-- A word holds every sample of a legal build exactly. -/
theorem wordOfInt_wt_toInt {b : Config.Build} (hb : b.Legal) (t k : Nat) : (wordOfInt (wt b t k)).toInt = wt b t k := by
  obtain ⟨hlow, hhigh⟩ := wt_range hb t k
  exact wordOfInt_toInt (by omega) (by omega)

end Read

/-- Settles O28: the command answers the sample of the bank, whose tables are those of the formulas; the last three
clauses are about the listing of R123, sample by sample. -/
theorem wtReadAnswersSample : Obligations.WtReadAnswersSample := by
  refine ⟨fun t i s ha hb => ⟨exec_wtRead_bad ha, fun ht hi => ?_⟩, fun b => ⟨fun k hk => ?_, fun hb => ?_, ?_⟩,
    by decide +kernel, by decide +kernel, by decide +kernel⟩
  · exact ⟨_, exec_wtRead_ok ha ht hi, wordOfInt_wt_toInt hb t.toNat i.toNat⟩
  · exact ⟨wt_sawtooth hk, wt_square hk, wt_sine hk⟩
  · exact ⟨fun k hk => wt_sine_nearest hb hk, wt_sine_eq_built hb⟩
  · exact fun t _ => wt_guard b t

end Wavetable

end Sys2Proof.Machine


/-! PROOFS of the family 41_oscillator.md: `OSC.SETFREQ` (R131), `OSC.NEXT` (R132) and `OSC.RESET` (R133). -/

namespace Sys2Proof.Machine

/-! ### One voice slot (20_memory.md R69) -/

section Slot

variable {s t : State} {v : Nat}

/-- A slot that is built holds what is written to it. -/
theorem updVoice_voice_self (hv : v < s.voices.length) (g : Voice → Voice) :
    (s.updVoice v g).voice v = g (s.voice v) := by
  rw [voice_updVoice, if_pos ⟨rfl, hv⟩]

theorem updVoice_onlySlot (s : State) (v : Nat) (g : Voice → Voice) : s.OnlySlot (s.updVoice v g) v where
  rest := rfl
  slots := updVoice_slots_length s v g
  others w hw := by rw [voice_updVoice, if_neg fun h => hw h.1.symm]

/-- `OnlySlot` leaves the response word free. -/
theorem State.OnlySlot.setResult (h : s.OnlySlot t v) (w : Word) : s.OnlySlot (t.setResult w) v where
  rest := congrArg (State.setResult · w) h.rest
  slots := h.slots
  others := h.others

end Slot

section Oscillator

/-! ### The selected oscillator and its table (20_memory.md R69, 41_oscillator.md R130) -/

section Select

variable {α : Type} {o : Half}

/-- The model selects by the number of the oscillator operand, the statements by the operand itself. -/
theorem ite_toNat_eq_zero (a b : α) : (if o.toNat = 0 then a else b) = if o = 0 then a else b :=
  if_congr (BitVec.toNat_inj (x := o) (y := 0)) rfl rfl

theorem Voice.osc_toNat (x : Voice) : x.osc o.toNat = if o = 0 then x.osc0 else x.osc1 :=
  ite_toNat_eq_zero x.osc0 x.osc1

theorem Voice.setOsc_toNat (x : Voice) (q : Osc) :
    x.setOsc o.toNat q = if o = 0 then { x with osc0 := q } else { x with osc1 := q } :=
  ite_toNat_eq_zero (α := Voice) _ _

theorem oscTable_toNat (b : Config.Build) : oscTable b o.toNat = if o = 0 then b.waveA else b.waveB :=
  ite_toNat_eq_zero b.waveA b.waveB

/-- The selected oscillator changed by `g`, the other kept. -/
theorem Voice.setOsc_osc (x : Voice) (g : Osc → Osc) :
    x.setOsc o.toNat (g (x.osc o.toNat)) =
      if o = 0 then { x with osc0 := g x.osc0 } else { x with osc1 := g x.osc1 } := by
  rw [Voice.setOsc_toNat, Voice.osc_toNat]
  split <;> rfl

end Select

/-! ### The operand check of the three commands (30_encoding.md R92, R94) -/

section Operands

variable {i : Instr} {v : Octet} {o : Half} {s t : State} {e : Effect}

/-- Both operands in range: what is left is the command's own effect. -/
theorem oscCommand_inRange (hv : v.toNat < s.poly.toNat) (ho : o.toNat ≤ 1) :
    renderCommand i s (if !s.voiceOk v || !oscOk o then .error .badIndex else e) = renderCommand i s e := by
  have hvok : s.voiceOk v = true := decide_eq_true hv
  have hook : oscOk o = true := decide_eq_true ho
  rw [hvok, hook]
  rfl

theorem oscCommand_ok (hr : s.ready) (hv : v.toNat < s.poly.toNat) (ho : o.toNat ≤ 1) :
    renderCommand i s (if !s.voiceOk v || !oscOk o then .error .badIndex else .ok t) = .next t :=
  (oscCommand_inRange hv ho).trans (renderCommand_ok hr.1 fun _ => hr.2)

/-- A voice or an oscillator out of range, checked before any other operand. -/
theorem oscCommand_bad (hr : s.ready) (h : s.poly.toNat ≤ v.toNat ∨ 1 < o.toNat) :
    renderCommand i s (if !s.voiceOk v || !oscOk o then .error .badIndex else e) =
      .next (s.raise .badIndex (encode i).w0) := by
  have hbad : (!s.voiceOk v || !oscOk o) = true := by
    rcases h with hv | ho
    · rw [State.voiceOk, decide_eq_false (Nat.not_lt.2 hv), Bool.not_false, Bool.true_or]
    · rw [oscOk, decide_eq_false (Nat.not_le.2 ho), Bool.not_false, Bool.or_true]
  rw [if_pos hbad]
  exact renderCommand_error hr.1 fun _ => hr.2

theorem exec_oscSetfreq_zero (hr : s.ready) (hv : v.toNat < s.poly.toNat) (ho : o.toNat ≤ 1) (f : Word) :
    exec (.oscSetfreq v o f 0) s = .next (s.raise .badOperand (encode (.oscSetfreq v o f 0)).w0) := by
  show execOscSetfreq v o f 0 s = _
  rw [execOscSetfreq, oscCommand_inRange hv ho, if_pos rfl]
  exact renderCommand_error hr.1 fun _ => hr.2

theorem exec_oscSetfreq_ok (hr : s.ready) (hv : v.toNat < s.poly.toNat) (ho : o.toNat ≤ 1) {fs : Word}
    (hfs : fs ≠ 0) (f : Word) :
    exec (.oscSetfreq v o f fs) s =
      .next (s.updVoice v.toNat fun x => x.setOsc o.toNat ((x.osc o.toNat).setFreq f fs)) := by
  show execOscSetfreq v o f fs s = _
  rw [execOscSetfreq, if_neg hfs]
  exact oscCommand_ok hr hv ho

end Operands

/-! ### The arithmetic of a phase (41_oscillator.md R131, R132) -/

section Phase

variable {b : Config.Build}

theorem oscIncrement_toNat (f fs : Word) :
    (oscIncrement f fs).toNat = f.toNat * 2 ^ 16 / fs.toNat % 2 ^ 32 := by
  rw [oscIncrement, BitVec.toNat_ofNat, Nat.mul_comm]

theorem fracBits_of_legal (hb : b.Legal) : b.fracBits = 32 - b.tableLog2 := by
  rw [Config.Build.fracBits, hb.phaseW]

/-- The interpolation of R132, with the fraction of a phase that a legal build has. -/
theorem oscSample_of_legal (hb : b.Legal) (t : Nat) (phase : Word) :
    let frac := 2 ^ (32 - b.tableLog2)
    let i := phase.toNat / frac
    oscSample b t phase = wt b t i + ((phase.toNat % frac : Nat) : Int) * (wt b t (i + 1) - wt b t i) / (frac : Nat) := by
  simp only [oscSample, fracBits_of_legal hb, Nat.cast_pow, Nat.cast_ofNat]

/-- A word holds every interpolated sample of a legal build exactly. -/
theorem wordOfInt_oscSample_toInt (hb : b.Legal) (t : Nat) (phase : Word) :
    (wordOfInt (oscSample b t phase)).toInt = oscSample b t phase := by
  obtain ⟨hlow, hhigh⟩ := oscSample_range hb t phase
  exact wordOfInt_toInt (by omega) (by omega)

end Phase

/-! ### The obligations -/

/-- Settles O30: the sample is of the phase as it was, which `oscSample_between` bounds by the two it is read from. -/
theorem oscNextInterpolates : Obligations.OscNextInterpolates := by
  refine fun v o s hr hbuilt hb => ⟨fun h => oscCommand_bad hr h, fun hv ho => ?_⟩
  rw [← Voice.osc_toNat, ← oscTable_toNat]
  intro q table frac t0 t1
  have sample : (wordOfInt (oscSample s.build table q.phase)).toInt = oscSample s.build table q.phase :=
    wordOfInt_oscSample_toInt hb table q.phase
  have inside : between t0 (oscSample s.build table q.phase) t1 := by
    have h := oscSample_between s.build table q.phase
    rwa [fracBits_of_legal hb] at h
  refine ⟨(s.updVoice v.toNat fun x => x.setOsc o.toNat q.advance).setResult
    (wordOfInt (oscSample s.build table q.phase)), q.advance.phase, oscCommand_ok hr hv ho,
    (updVoice_onlySlot _ _ _).setResult _, BitVec.toNat_add _ _, ?_, ?_, ?_⟩
  · rw [setResult_voice, updVoice_voice_self (Nat.lt_of_lt_of_le hv hbuilt)]
    exact Voice.setOsc_toNat _ _
  · exact sample.trans (oscSample_of_legal hb table q.phase)
  · rw [setResult_result, sample]
    exact inside

/-- Settles O29: the operation is `Osc.setFreq` on the one oscillator; its divisor is checked after the indices. -/
theorem oscSetfreqSetsIncrement : Obligations.OscSetfreqSetsIncrement := by
  refine fun v o f fs s hr hbuilt => ⟨fun h => oscCommand_bad hr h, fun hv ho hfs => ?_, fun hv ho hfs => ?_⟩
  · subst hfs
    exact exec_oscSetfreq_zero hr hv ho f
  · refine ⟨_, oscIncrement f fs, exec_oscSetfreq_ok hr hv ho hfs f, updVoice_onlySlot _ _ _, rfl,
      oscIncrement_toNat f fs, ?_⟩
    rw [updVoice_voice_self (Nat.lt_of_lt_of_le hv hbuilt)]
    exact Voice.setOsc_osc _ fun q => q.setFreq f fs

/-- Settles O31: the operation is `Osc.resetPhase` on the one oscillator. -/
theorem oscResetClearsPhase : Obligations.OscResetClearsPhase := by
  refine fun v o s hr hbuilt => ⟨fun h => oscCommand_bad hr h, fun hv ho => ?_⟩
  refine ⟨_, oscCommand_ok hr hv ho, updVoice_onlySlot _ _ _, rfl, ?_⟩
  rw [updVoice_voice_self (Nat.lt_of_lt_of_le hv hbuilt)]
  exact Voice.setOsc_osc _ Osc.resetPhase

end Oscillator

end Sys2Proof.Machine


/-! PROOFS of the family 42_envelope.md: the snapshot (R140), the gates (R141, R142, R144) and `ENV.NEXT` (R143,
R146). -/

namespace Sys2Proof.Machine

section Envelope

/-! ### The commands on an envelope (42_envelope.md R140 to R144) -/

section Commands

variable {i : Instr} {v : Octet} {s : State}

/-- A command that changes one slot by `g`, with its operand in range. -/
theorem voiceCommand_slot {g : Voice → Voice} (hr : s.ready) (hv : v.toNat < s.poly.toNat)
    (hbuilt : s.poly.toNat ≤ s.voices.length) :
    ∃ t, renderCommand i s (if !s.voiceOk v then .error .badIndex else .ok (s.updVoice v.toNat g)) = .next t ∧
      s.OnlySlot t v.toNat ∧ t.result = s.result ∧ t.voice v.toNat = g (s.voice v.toNat) :=
  ⟨_, voiceCommand_ok hr hv, updVoice_onlySlot s _ g, rfl, updVoice_voice_self (Nat.lt_of_lt_of_le hv hbuilt) g⟩

/-- `ENV.NEXT` with its operand in range: `Env.next` on the one envelope. -/
theorem exec_envNext_ok (hr : s.ready) (hi : s.Inv) (hv : v.toNat < s.poly.toNat) :
    ∃ t, exec (.envNext v) s = .next t ∧ s.OnlySlot t v.toNat ∧
      t.voice v.toNat = { s.voice v.toNat with env := (s.voice v.toNat).env.next s.envParams } ∧
      t.result = ((s.voice v.toNat).env.next s.envParams).level := by
  have hbuilt : v.toNat < s.voices.length := hi.slots ▸ Nat.lt_of_lt_of_le hv hi.poly
  refine ⟨_, voiceCommand_ok hr hv, (updVoice_onlySlot _ _ _).setResult _, ?_, rfl⟩
  rw [setResult_voice, updVoice_voice_self hbuilt]

end Commands

/-- Settles O32: `envSnapshot` reads the three times by `samplesOf` and the sustain level by `clamp31`. -/
theorem envLoadpSnapshots : Obligations.EnvLoadpSnapshots :=
  fun s hr => ⟨envSnapshot s.store s.srate, renderCommand_ok hr.1 fun _ => hr.2, samplesOf_toNat _ _,
    samplesOf_toNat _ _, clamp31_toNat _, samplesOf_toNat _ _⟩

/-- Settles O33: the two gates change the one slot, the query only the response word. -/
theorem envGates : Obligations.EnvGates := by
  refine fun v s hr hbuilt => ⟨fun hv => ?_, fun hv => ?_⟩
  · exact ⟨voiceCommand_bad hr hv, voiceCommand_bad hr hv, voiceCommand_bad hr hv⟩
  · exact ⟨voiceCommand_slot hr hv hbuilt, voiceCommand_slot hr hv hbuilt, voiceCommand_ok hr hv⟩

/-! ### One call of `ENV.NEXT`, by the stage (42_envelope.md R143) -/

section Stages

variable {p : EnvParams} {e : Env}

theorem Env.next_of_idle (hs : e.stage = .idle) : e.next p = { e with level := 0 } := by
  rw [Env.next, hs]

theorem Env.next_of_attack (hs : e.stage = .attack) : e.next p = e.nextAttack p := by
  rw [Env.next, hs]

theorem Env.next_of_decay (hs : e.stage = .decay) : e.next p = e.nextDecay p := by
  rw [Env.next, hs]

theorem Env.next_of_sustain (hs : e.stage = .sustain) : e.next p = { e with level := p.sus } := by
  rw [Env.next, hs]

theorem Env.next_of_release (hs : e.stage = .release) : e.next p = e.nextRelease p := by
  rw [Env.next, hs]

/-- Only `ENV.NOTEOFF` writes `REL_START` (R142). -/
theorem Env.next_relStart (p : EnvParams) (e : Env) : (e.next p).relStart = e.relStart := by
  cases hs : e.stage
  case idle => rw [Env.next_of_idle hs]
  case attack =>
    rw [Env.next_of_attack hs]
    exact (apply_ite Env.relStart _ _ _).trans (ite_self _)
  case decay =>
    rw [Env.next_of_decay hs]
    exact (apply_ite Env.relStart _ _ _).trans (ite_self _)
  case sustain => rw [Env.next_of_sustain hs]
  case release =>
    rw [Env.next_of_release hs]
    exact (apply_ite Env.relStart _ _ _).trans (ite_self _)

theorem Env.nextAttack_of_le (hn : p.alen.toNat ≤ e.progress.toNat + 1) :
    e.nextAttack p = { e with level := BitVec.ofNat 32 one31, stage := .decay, progress := 0 } := if_pos hn

theorem Env.nextAttack_of_not_le (hn : ¬ p.alen.toNat ≤ e.progress.toNat + 1) :
    e.nextAttack p = { e with
      level := BitVec.ofNat 32 (max e.level.toNat (one31 * (e.progress.toNat + 1) / p.alen.toNat))
      progress := BitVec.ofNat 32 (e.progress.toNat + 1) } := if_neg hn

theorem Env.nextDecay_of_le (hn : p.dlen.toNat ≤ e.progress.toNat + 1) :
    e.nextDecay p = { e with
      level := BitVec.ofNat 32 (min e.level.toNat p.sus.toNat), stage := .sustain, progress := 0 } := if_pos hn

theorem Env.nextDecay_of_not_le (hn : ¬ p.dlen.toNat ≤ e.progress.toNat + 1) :
    e.nextDecay p = { e with
      level := BitVec.ofNat 32
        (min e.level.toNat (one31 - (one31 - p.sus.toNat) * (e.progress.toNat + 1) / p.dlen.toNat))
      progress := BitVec.ofNat 32 (e.progress.toNat + 1) } := if_neg hn

theorem Env.nextRelease_of_zero (hl : releaseLevel p e (e.progress.toNat + 1) = 0) :
    e.nextRelease p = { e with level := 0, stage := .idle, progress := 0 } := if_pos hl

theorem Env.nextRelease_of_ne_zero (hl : releaseLevel p e (e.progress.toNat + 1) ≠ 0) :
    e.nextRelease p = { e with
      level := BitVec.ofNat 32 (releaseLevel p e (e.progress.toNat + 1))
      progress := BitVec.ofNat 32 (e.progress.toNat + 1) } := if_neg hl

theorem releaseLevel_of_le {n : Nat} (hn : p.rlen.toNat ≤ n) : releaseLevel p e n = 0 := if_pos hn

theorem releaseLevel_of_lt {n : Nat} (hn : n < p.rlen.toNat) :
    releaseLevel p e n = min e.level.toNat (e.relStart.toNat - e.relStart.toNat * n / p.rlen.toNat) :=
  if_neg (Nat.not_le.2 hn)

/-- The end of Release is at level 0, so before it the count is below the length. -/
theorem lt_rlen_of_releaseLevel_ne_zero {n : Nat} (hl : releaseLevel p e n ≠ 0) : n < p.rlen.toNat :=
  Nat.lt_of_not_le fun hn => hl (releaseLevel_of_le hn)

/-- The least of a level and another number is a level. -/
theorem min_level_toNat (h : e.Ok) (n : Nat) : (BitVec.ofNat 32 (min e.level.toNat n)).toNat = min e.level.toNat n :=
  level_toNat (Nat.le_trans (Nat.min_le_left _ _) h.level)

theorem Env.nextAttack_advances (h : e.Ok) (hs : e.stage = .attack) :
    if p.alen.toNat ≤ e.progress.toNat + 1 then
      (e.nextAttack p).level.toNat = one31 ∧ (e.nextAttack p).stage = .decay ∧ (e.nextAttack p).progress = 0
    else
      (e.nextAttack p).level.toNat = max e.level.toNat (one31 * (e.progress.toNat + 1) / p.alen.toNat) ∧
        (e.nextAttack p).stage = .attack ∧ (e.nextAttack p).progress.toNat = e.progress.toNat + 1 := by
  split
  · next hn =>
    rw [Env.nextAttack_of_le hn]
    exact ⟨level_toNat (Nat.le_refl _), rfl, rfl⟩
  · next hn =>
    rw [Env.nextAttack_of_not_le hn]
    have hle := Nat.max_le.2 ⟨h.level, share_le (a := one31) (Nat.not_le.1 hn)⟩
    exact ⟨level_toNat hle, hs, (count_toNat hn).1⟩

theorem Env.nextDecay_advances (h : e.Ok) (hs : e.stage = .decay) :
    if p.dlen.toNat ≤ e.progress.toNat + 1 then
      (e.nextDecay p).level.toNat = min e.level.toNat p.sus.toNat ∧
        (e.nextDecay p).stage = .sustain ∧ (e.nextDecay p).progress = 0
    else
      (e.nextDecay p).level.toNat =
          min e.level.toNat (one31 - (one31 - p.sus.toNat) * (e.progress.toNat + 1) / p.dlen.toNat) ∧
        (e.nextDecay p).stage = .decay ∧ (e.nextDecay p).progress.toNat = e.progress.toNat + 1 := by
  split
  · next hn =>
    rw [Env.nextDecay_of_le hn]
    exact ⟨min_level_toNat h _, rfl, rfl⟩
  · next hn =>
    rw [Env.nextDecay_of_not_le hn]
    exact ⟨min_level_toNat h _, hs, (count_toNat hn).1⟩

theorem Env.nextRelease_advances (h : e.Ok) (hs : e.stage = .release) :
    (e.nextRelease p).level.toNat = releaseLevel p e (e.progress.toNat + 1) ∧
      if releaseLevel p e (e.progress.toNat + 1) = 0 then
        (e.nextRelease p).stage = .idle ∧ (e.nextRelease p).progress = 0
      else
        (e.nextRelease p).stage = .release ∧ (e.nextRelease p).progress.toNat = e.progress.toNat + 1 := by
  split
  · next hl =>
    rw [Env.nextRelease_of_zero hl]
    exact ⟨hl.symm, rfl, rfl⟩
  · next hl =>
    rw [Env.nextRelease_of_ne_zero hl]
    have hle := Nat.le_trans (releaseLevel_le p e (e.progress.toNat + 1)) h.level
    have hn := Nat.not_le.2 (lt_rlen_of_releaseLevel_ne_zero hl)
    exact ⟨level_toNat hle, hs, (count_toNat hn).1⟩

end Stages

/-- Settles O34: `Env.next` on the one envelope, whose call in each stage the lemmas above compute. -/
theorem envNextAdvances : Obligations.EnvNextAdvances := by
  refine fun v s hr hi => ⟨fun hv => voiceCommand_bad hr hv, fun hv => ?_⟩
  intro e p n
  have he : e.Ok := (inv_voice_ok hi v.toNat).env
  obtain ⟨t, hexec, honly, hslot, hresult⟩ := exec_envNext_ok hr hi hv
  refine ⟨t, e.next p, hexec, honly, hslot, hresult, Env.next_relStart p e, fun hs => Env.next_of_idle hs,
    fun hs => ?_, fun hs => ?_, fun hs => Env.next_of_sustain hs, fun hs => ?_⟩
  · rw [Env.next_of_attack hs]
    exact Env.nextAttack_advances he hs
  · rw [Env.next_of_decay hs]
    exact Env.nextDecay_advances he hs
  · rw [Env.next_of_release hs]
    exact Env.nextRelease_advances he hs

/-- Settles O35: the clamps of each stage against the level before the call, for any shared parameters. -/
theorem envMonotoneInStage : Obligations.EnvMonotoneInStage := by
  intro v s t hr hi hv hexec e e'
  have he : e.Ok := (inv_voice_ok hi v.toNat).env
  have hnext : e' = e.next s.envParams := by
    obtain ⟨u, hu, -, hslot, -⟩ := exec_envNext_ok hr hi hv
    cases hu.symm.trans hexec
    exact congrArg Voice.env hslot
  have he' : e'.Ok := hnext ▸ Env.next_ok he hi.sus
  refine ⟨fun hs => ?_, fun hs => ?_, he'.level, he'.idle⟩
  · rw [hnext, Env.next_of_attack hs]
    exact (Env.nextAttack_spec he hs).2
  · rcases hs with hs | hs
    · rw [hnext, Env.next_of_decay hs]
      exact (Env.nextDecay_spec he hs).2
    · rw [hnext, Env.next_of_release hs]
      exact (Env.nextRelease_spec he hs).2

/-! ### A whole release (42_envelope.md R142, R143) -/

/-- The level `k` calls into a release from `start` that is not over. -/
def EnvParams.fallenTo (p : EnvParams) (start : Word) (k : Nat) : Nat :=
  start.toNat - start.toNat * k / p.rlen.toNat

/-- The envelope `k` calls into a release from `start` that is not over. -/
def Env.releasing (p : EnvParams) (start : Word) (k : Nat) : Env :=
  ⟨.release, BitVec.ofNat 32 (p.fallenTo start k), BitVec.ofNat 32 k, start⟩

section Release

variable {p : EnvParams} {e : Env} {start : Word} {k : Nat}

theorem EnvParams.fallenTo_zero (p : EnvParams) (start : Word) : p.fallenTo start 0 = start.toNat := by
  rw [EnvParams.fallenTo, Nat.mul_zero, Nat.zero_div, Nat.sub_zero]

/-- A fixed start and length make the fall monotonic, so that the clamp of Release changes nothing. -/
theorem EnvParams.fallenTo_succ_le (p : EnvParams) (start : Word) (k : Nat) :
    p.fallenTo start (k + 1) ≤ p.fallenTo start k :=
  Nat.sub_le_sub_left (Nat.div_le_div_right (Nat.mul_le_mul_left _ (Nat.le_succ k))) _

/-- Less than the whole start is lost before the last call. -/
theorem EnvParams.fallenTo_pos (hpos : 0 < start.toNat) (hk : k < p.rlen.toNat) : 0 < p.fallenTo start k := by
  have hlost : start.toNat * k / p.rlen.toNat < start.toNat :=
    Nat.div_lt_of_lt_mul (by
      rw [Nat.mul_comm p.rlen.toNat]
      exact Nat.mul_lt_mul_of_pos_left hk hpos)
  exact Nat.sub_pos_of_lt hlost

theorem Env.releasing_level_toNat (p : EnvParams) (start : Word) (k : Nat) :
    (Env.releasing p start k).level.toNat = p.fallenTo start k :=
  toNat_ofNat_of_lt (Nat.lt_of_le_of_lt (Nat.sub_le _ _) start.isLt)

/-- The count of a release that is not over is below 2^32. -/
theorem Env.releasing_progress_toNat (p : EnvParams) (start : Word) (hk : k < max 1 p.rlen.toNat) :
    (Env.releasing p start k).progress.toNat = k :=
  toNat_ofNat_of_lt (Nat.lt_of_lt_of_le hk (Nat.max_le.2 ⟨by decide, Nat.le_of_lt p.rlen.isLt⟩))

theorem Env.noteOff_eq_releasing (p : EnvParams) (e : Env) : e.noteOff = Env.releasing p e.level 0 := by
  rw [Env.releasing, EnvParams.fallenTo_zero, BitVec.ofNat_toNat, BitVec.setWidth_eq]
  rfl

/-- The level that a call in a release computes, while it is not the last one. -/
theorem releaseLevel_releasing (hk : k + 1 < p.rlen.toNat) :
    releaseLevel p (Env.releasing p start k) (k + 1) = p.fallenTo start (k + 1) := by
  rw [releaseLevel_of_lt hk, Env.releasing_level_toNat]
  exact Nat.min_eq_right (EnvParams.fallenTo_succ_le p start k)

theorem Env.next_releasing (hpos : 0 < start.toNat) (hk : k + 1 < p.rlen.toNat) :
    (Env.releasing p start k).next p = Env.releasing p start (k + 1) := by
  have hprogress : (Env.releasing p start k).progress.toNat = k := Env.releasing_progress_toNat p start (by omega)
  have hlevel := releaseLevel_releasing (start := start) hk
  have hne : releaseLevel p (Env.releasing p start k) (k + 1) ≠ 0 :=
    hlevel ▸ Nat.ne_of_gt (EnvParams.fallenTo_pos hpos hk)
  rw [Env.next_of_release rfl, Env.nextRelease_of_ne_zero (hprogress.symm ▸ hne), hprogress, hlevel]
  rfl

/-- The last call of a release. -/
theorem Env.next_releasing_last (start : Word) (hk : k + 1 = max 1 p.rlen.toNat) :
    ((Env.releasing p start k).next p).stage = .idle := by
  have hprogress : (Env.releasing p start k).progress.toNat = k := Env.releasing_progress_toNat p start (by omega)
  have hover : p.rlen.toNat ≤ (Env.releasing p start k).progress.toNat + 1 := by omega
  rw [Env.next_of_release rfl, Env.nextRelease_of_zero (releaseLevel_of_le hover)]

theorem Env.iterate_next_noteOff (hpos : 0 < e.level.toNat) (hk : k < max 1 p.rlen.toNat) :
    (Env.next p)^[k] e.noteOff = Env.releasing p e.level k := by
  induction k with
  | zero => exact Env.noteOff_eq_releasing p e
  | succ k ih =>
    rw [Function.iterate_succ_apply', ih (by omega)]
    exact Env.next_releasing hpos (by omega)

end Release

/-- Settles O36: by induction the envelope is `Env.releasing` until the last call, which `Env.next_releasing_last`
sends to Idle. -/
theorem releaseLastsRlenCalls : Obligations.ReleaseLastsRlenCalls := by
  refine fun p e _ hpos => ⟨fun k hk => ?_, ?_⟩
  · rw [Env.iterate_next_noteOff hpos hk, Env.releasing_level_toNat]
    refine ⟨rfl, ?_⟩
    cases k with
    | zero => exact (EnvParams.fallenTo_zero p e.level).symm ▸ hpos
    | succ k => exact EnvParams.fallenTo_pos hpos (by omega)
  · obtain ⟨k, hk⟩ : ∃ k, max 1 p.rlen.toNat = k + 1 := Nat.exists_eq_succ_of_ne_zero (by omega)
    rw [hk, Function.iterate_succ_apply', Env.iterate_next_noteOff hpos (by omega)]
    exact Env.next_releasing_last e.level hk.symm

end Envelope

end Sys2Proof.Machine


/-! PROOFS of the family 43_ramp.md: the selection of a ramp and `RMP.GETCUR` (R159, R161), `RMP.RESET` (R156),
`RMP.SETTARGET` (R157), `RMP.NEXT` (R158) and the properties of R160. -/

namespace Sys2Proof.Machine

/-! ### One ramp (10_state.md R32, 20_memory.md R69) -/

/-- The ramp `q` exists: a ramp of a voice is in a slot that is built. -/
def RampRef.IsBuilt (s : State) : RampRef → Prop
  | .pressure v | .timbre v | .frequency v => v < s.voices.length
  | .cutoff | .mix | .decayRamp => True

section OneRamp

variable {s t : State} {q : RampRef}

/-- What an operation on a slot keeps of every voice, it keeps of the block. -/
theorem updVoice_keeps {α : Type} (f : Voice → α) {g : Voice → Voice} (hg : ∀ y, f (g y) = f y) (v w : Nat) :
    f ((s.updVoice v g).voice w) = f (s.voice w) := by
  rw [voice_updVoice]
  split
  · next h => rw [hg, h.1]
  · rfl

/-- A ramp that is built holds what is written to it. -/
theorem setRamp_ramp_self (hq : q.IsBuilt s) (x : Ramp) : (s.setRamp q x).ramp q = x := by
  cases q with
  | pressure v => exact congrArg Voice.pressure (updVoice_voice_self hq _)
  | timbre v => exact congrArg Voice.timbre (updVoice_voice_self hq _)
  | frequency v => exact congrArg Voice.frequency (updVoice_voice_self hq _)
  | cutoff | mix | decayRamp => rfl

theorem updVoice_voice_other {v w : Nat} (h : w ≠ v) (g : Voice → Voice) :
    (s.updVoice v g).voice w = s.voice w :=
  (updVoice_onlySlot s v g).others w h

theorem setRamp_ramp_other {r : RampRef} (h : r ≠ q) (x : Ramp) : (s.setRamp q x).ramp r = s.ramp r := by
  cases q with
  | pressure v =>
    cases r with
    | pressure w => exact congrArg Voice.pressure (updVoice_voice_other (fun e => h (congrArg _ e)) _)
    | timbre w => exact updVoice_keeps Voice.timbre (fun _ => by rfl) v w
    | frequency w => exact updVoice_keeps Voice.frequency (fun _ => by rfl) v w
    | cutoff | mix | decayRamp => rfl
  | timbre v =>
    cases r with
    | pressure w => exact updVoice_keeps Voice.pressure (fun _ => by rfl) v w
    | timbre w => exact congrArg Voice.timbre (updVoice_voice_other (fun e => h (congrArg _ e)) _)
    | frequency w => exact updVoice_keeps Voice.frequency (fun _ => by rfl) v w
    | cutoff | mix | decayRamp => rfl
  | frequency v =>
    cases r with
    | pressure w => exact updVoice_keeps Voice.pressure (fun _ => by rfl) v w
    | timbre w => exact updVoice_keeps Voice.timbre (fun _ => by rfl) v w
    | frequency w => exact congrArg Voice.frequency (updVoice_voice_other (fun e => h (congrArg _ e)) _)
    | cutoff | mix | decayRamp => rfl
  | cutoff =>
    cases r with
    | cutoff => exact absurd rfl h
    | _ => rfl
  | mix =>
    cases r with
    | mix => exact absurd rfl h
    | _ => rfl
  | decayRamp =>
    cases r with
    | decayRamp => exact absurd rfl h
    | _ => rfl

/-- A voice but for its ramps. -/
def Voice.withoutRamps (y : Voice) : Voice :=
  { y with pressure := Ramp.zero, timbre := Ramp.zero, frequency := Ramp.zero }

theorem setRamp_withoutRamps (s : State) (q : RampRef) (x : Ramp) (w : Nat) :
    ((s.setRamp q x).voice w).withoutRamps = (s.voice w).withoutRamps := by
  cases q with
  | pressure v | timbre v | frequency v => exact updVoice_keeps Voice.withoutRamps (fun _ => by rfl) v w
  | cutoff | mix | decayRamp => rfl

theorem Voice.eq_of_withoutRamps {y z : Voice} (h : y.withoutRamps = z.withoutRamps) :
    y = { z with pressure := y.pressure, timbre := y.timbre, frequency := y.frequency } := by
  cases y
  cases z
  simp only [Voice.withoutRamps, Voice.mk.injEq] at h ⊢
  simp [h]

theorem setRamp_onlyRamp (s : State) (q : RampRef) (x : Ramp) : s.OnlyRamp (s.setRamp q x) q where
  rest := by cases q <;> rfl
  slots := by
    cases q with
    | pressure v | timbre v | frequency v => exact updVoice_slots_length s v _
    | cutoff | mix | decayRamp => rfl
  ramps _ hr := setRamp_ramp_other hr x
  voices w := Voice.eq_of_withoutRamps (setRamp_withoutRamps s q x w)

@[simp] theorem setRamp_result (s : State) (q : RampRef) (x : Ramp) : (s.setRamp q x).result = s.result := by
  cases q <;> rfl

@[simp] theorem setResult_ramp (s : State) (w : Word) (q : RampRef) : (s.setResult w).ramp q = s.ramp q := by
  cases q <;> rfl

/-- `OnlyRamp` leaves the response word free. -/
theorem State.OnlyRamp.setResult (h : s.OnlyRamp t q) (w : Word) : s.OnlyRamp (t.setResult w) q where
  rest := congrArg (State.setResult · w) h.rest
  slots := h.slots
  ramps r hr := (setResult_ramp t w r).trans (h.ramps r hr)
  voices := h.voices

end OneRamp

/-! ### The selection of a ramp (43_ramp.md R161) -/

section Selection

variable {s : State} {sel : Octet} {r : Half} {q : RampRef}

theorem selectRamp_eq_none
    (h : 5 < r.toNat ∨ (r.toNat ≤ 2 ∧ s.poly.toNat ≤ sel.toNat) ∨ (3 ≤ r.toNat ∧ sel ≠ 0)) :
    s.selectRamp sel r = none := by
  unfold State.selectRamp
  rcases h with h | ⟨hr, hsel⟩ | ⟨hr, hsel⟩
  · rw [if_pos h]
  · have hbad : ¬s.voiceOk sel = true := by simpa [State.voiceOk] using hsel
    rw [if_neg (by omega), if_pos hr, if_neg hbad]
  · rw [if_neg (Nat.not_le.2 hr), if_neg hsel, ite_self]

/-- The three ramps of a voice in use. -/
theorem selectRamp_voice (hv : sel.toNat < s.poly.toNat) :
    s.selectRamp sel 0 = some (.pressure sel.toNat) ∧ s.selectRamp sel 1 = some (.timbre sel.toNat) ∧
      s.selectRamp sel 2 = some (.frequency sel.toNat) := by
  have hok : s.voiceOk sel = true := decide_eq_true hv
  simp [State.selectRamp, hok]

/-- The three global ramps. -/
theorem selectRamp_global (s : State) :
    s.selectRamp 0 3 = some .cutoff ∧ s.selectRamp 0 4 = some .mix ∧ s.selectRamp 0 5 = some .decayRamp :=
  ⟨rfl, rfl, rfl⟩

/-- A ramp that is selected is built, in a block that has built the slots in use. -/
theorem selectRamp_isBuilt (hbuilt : s.poly.toNat ≤ s.voices.length) (h : s.selectRamp sel r = some q) :
    q.IsBuilt s := by
  unfold State.selectRamp at h
  split at h
  · cases h
  split at h
  · split at h
    · next hok =>
      have hv : sel.toNat < s.voices.length := Nat.lt_of_lt_of_le (of_decide_eq_true hok) hbuilt
      obtain rfl := Option.some.inj h
      split
      · exact hv
      · split <;> exact hv
    · cases h
  split at h
  · obtain rfl := Option.some.inj h
    split
    · trivial
    · split <;> trivial
  · cases h

end Selection

/-! ### The four commands on a ramp (43_ramp.md R156 to R159) -/

section Commands

variable {s : State} {sel : Octet} {r : Half} {q : RampRef}

/-- A select that names no ramp faults, before any other operand is looked at. -/
theorem rampCommand_bad {i : Instr} {e : RampRef → Effect} (hr : s.ready) (h : s.selectRamp sel r = none) :
    renderCommand i s (match s.selectRamp sel r with
      | none => .error .badIndex
      | some q => e q) = .next (s.raise .badIndex (encode i).w0) := by
  rw [h]
  exact renderCommand_error hr.1 fun _ => hr.2

theorem exec_rmpSettarget_bad (hr : s.ready) (h : s.selectRamp sel r = none) (x : Word) :
    exec (.rmpSettarget sel r x) s = .next (s.faulted 0x07 (packW0 0x60 sel r)) :=
  rampCommand_bad hr h

theorem exec_rmpReset_bad (hr : s.ready) (h : s.selectRamp sel r = none) (fs time : Word) :
    exec (.rmpReset sel r fs time) s = .next (s.faulted 0x07 (packW0 0x61 sel r)) :=
  rampCommand_bad hr h

theorem exec_rmpNext_bad (hr : s.ready) (h : s.selectRamp sel r = none) :
    exec (.rmpNext sel r) s = .next (s.faulted 0x07 (packW0 0x62 sel r)) :=
  rampCommand_bad hr h

theorem exec_rmpGetcur_bad (hr : s.ready) (h : s.selectRamp sel r = none) :
    exec (.rmpGetcur sel r) s = .next (s.faulted 0x07 (packW0 0x63 sel r)) :=
  rampCommand_bad hr h

theorem exec_rmpSettarget_ok (hr : s.ready) (h : s.selectRamp sel r = some q) (x : Word) :
    exec (.rmpSettarget sel r x) s = .next (s.setRamp q ((s.ramp q).setTarget x)) := by
  show execRmpSettarget sel r x s = _
  rw [execRmpSettarget, h]
  exact renderCommand_ok hr.1 fun _ => hr.2

theorem exec_rmpReset_zero (hr : s.ready) (h : s.selectRamp sel r = some q) (time : Word) :
    exec (.rmpReset sel r 0 time) s = .next (s.faulted 0x08 (packW0 0x61 sel r)) := by
  show execRmpReset sel r 0 time s = _
  rw [execRmpReset, h]
  exact renderCommand_error (c := .badOperand) hr.1 fun _ => hr.2

theorem exec_rmpReset_ok (hr : s.ready) (h : s.selectRamp sel r = some q) {fs : Word} (hfs : fs ≠ 0) (time : Word) :
    exec (.rmpReset sel r fs time) s = .next (s.setRamp q ((s.ramp q).reset fs time s.rampMode)) := by
  show execRmpReset sel r fs time s = _
  rw [execRmpReset, h]
  simp only [if_neg hfs]
  exact renderCommand_ok hr.1 fun _ => hr.2

theorem exec_rmpNext_ok (hr : s.ready) (h : s.selectRamp sel r = some q) :
    exec (.rmpNext sel r) s = .next ((s.setRamp q (s.ramp q).next).setResult (s.ramp q).next.cur) := by
  show execRmpNext sel r s = _
  rw [execRmpNext, h]
  exact renderCommand_ok hr.1 fun _ => hr.2

theorem exec_rmpGetcur_ok (hr : s.ready) (h : s.selectRamp sel r = some q) :
    exec (.rmpGetcur sel r) s = .next (s.setResult (s.ramp q).cur) := by
  show execRmpGetcur sel r s = _
  rw [execRmpGetcur, h]
  exact renderCommand_ok hr.1 fun _ => hr.2

end Commands

/-- Settles O37: a select out of range names no ramp, and each of the six others the ramp that `RMP.GETCUR` reads. -/
theorem rampSelectionAndGetcur : Obligations.RampSelectionAndGetcur := by
  refine fun sel r x fs time s hr => ⟨fun h => ?_, fun hv => ?_, fun hsel => ?_⟩
  · have hnone := selectRamp_eq_none h
    exact ⟨exec_rmpSettarget_bad hr hnone x, exec_rmpReset_bad hr hnone fs time, exec_rmpNext_bad hr hnone,
      exec_rmpGetcur_bad hr hnone⟩
  · obtain ⟨pressure, timbre, frequency⟩ := selectRamp_voice hv
    refine ⟨?_, ?_, ?_⟩ <;> rintro rfl
    · exact ⟨pressure, exec_rmpGetcur_ok hr pressure⟩
    · exact ⟨timbre, exec_rmpGetcur_ok hr timbre⟩
    · exact ⟨frequency, exec_rmpGetcur_ok hr frequency⟩
  · obtain rfl := hsel
    obtain ⟨cutoff, mix, decayRamp⟩ := selectRamp_global s
    refine ⟨?_, ?_, ?_⟩ <;> rintro rfl
    · exact ⟨cutoff, exec_rmpGetcur_ok hr cutoff⟩
    · exact ⟨mix, exec_rmpGetcur_ok hr mix⟩
    · exact ⟨decayRamp, exec_rmpGetcur_ok hr decayRamp⟩

/-! ### `RMP.RESET` (43_ramp.md R156) -/

theorem rampCoef_toNat (steps : Word) :
    (rampCoef steps).toNat = if steps.toNat ≤ 1 then 2 ^ 31 else max 1 (2 ^ 31 / steps.toNat) := by
  have hdiv : 2 ^ 31 / steps.toNat ≤ 2 ^ 31 := Nat.div_le_self _ _
  unfold rampCoef
  split
  · rfl
  · exact toNat_ofNat_of_lt (Nat.lt_of_le_of_lt (Nat.max_le.2 ⟨by decide, hdiv⟩) (by decide))

theorem Ramp.reset_freshAt (x : Ramp) (fs time : Word) (mode : RampMode) :
    (x.reset fs time mode).FreshAt x.tgt fs time mode where
  cur := rfl
  tgt := rfl
  step := rfl
  cnt := rfl
  steps := (samplesOf_toNat time fs).trans (Nat.min_comm _ _)
  coef := rampCoef_toNat _
  mode := rfl

/-- Settles O38: the operation is `Ramp.reset` on the one ramp; its divisor is checked after the select. -/
theorem rmpResetSnaps : Obligations.RmpResetSnaps := by
  refine fun sel r fs time s hr hbuilt => ⟨fun h => exec_rmpReset_bad hr h fs time, fun q hq => ⟨?_, fun hfs => ?_⟩⟩
  · rintro rfl
    exact exec_rmpReset_zero hr hq time
  · refine ⟨_, exec_rmpReset_ok hr hq hfs time, setRamp_onlyRamp s q _, setRamp_result s q _, ?_⟩
    rw [setRamp_ramp_self (selectRamp_isBuilt hbuilt hq)]
    exact Ramp.reset_freshAt _ fs time s.rampMode

/-! ### `RMP.SETTARGET` (43_ramp.md R157) -/

section SetTarget

variable {a : Ramp} {x : Word}

theorem Ramp.setTarget_instant (h : a.steps = 0) (x : Word) :
    a.setTarget x = { a with tgt := x, cur := x, cnt := 0, step := 0 } := if_pos h

theorem Ramp.setTarget_linear_same (h : a.steps ≠ 0) (hm : a.mode = .linear) : a.setTarget a.tgt = a := by
  rw [Ramp.setTarget, if_neg h, hm]
  exact if_pos rfl

theorem Ramp.setTarget_linear (h : a.steps ≠ 0) (hm : a.mode = .linear) (hx : x ≠ a.tgt) :
    a.setTarget x = { a with tgt := x, cnt := a.steps, step := rampStep a.cur x a.steps } := by
  rw [Ramp.setTarget, if_neg h, hm]
  exact if_neg hx

theorem Ramp.setTarget_exponential (h : a.steps ≠ 0) (hm : a.mode = .exponential) (x : Word) :
    a.setTarget x = { a with tgt := x } := by
  rw [Ramp.setTarget, if_neg h, hm]

/-- A new target does not move the value of a ramp that takes any time (R160 (c)). -/
theorem Ramp.setTarget_cur (h : a.steps ≠ 0) (x : Word) : (a.setTarget x).cur = a.cur := by
  cases hm : a.mode
  case linear =>
    by_cases hx : x = a.tgt
    · rw [hx, Ramp.setTarget_linear_same h hm]
    · rw [Ramp.setTarget_linear h hm hx]
  case exponential => rw [Ramp.setTarget_exponential h hm]

end SetTarget

/-- Settles O39: the operation is `Ramp.setTarget` on the one ramp. -/
theorem rmpSettargetRetargets : Obligations.RmpSettargetRetargets := by
  refine fun sel r x s hr hbuilt => ⟨fun h => exec_rmpSettarget_bad hr h x, fun q hq => ?_⟩
  intro a
  refine ⟨_, a.setTarget x, exec_rmpSettarget_ok hr hq x, setRamp_onlyRamp s q _, setRamp_result s q _,
    setRamp_ramp_self (selectRamp_isBuilt hbuilt hq) _, fun h => Ramp.setTarget_instant h x,
    fun h hm hx => hx ▸ Ramp.setTarget_linear_same h hm, fun h hm hx => ?_,
    fun h hm => Ramp.setTarget_exponential h hm x⟩
  rw [Ramp.setTarget_linear h hm hx]
  exact ⟨rfl, rampStep_toInt h⟩

/-! ### `RMP.NEXT` (43_ramp.md R158) -/

/-- Equal steps that do not pass the target in all, do not pass it before. -/
theorem between_of_heading {c t d : Int} {k n : Nat} (hk : k ≤ n)
    (h : (0 ≤ d ∧ c + d * n ≤ t) ∨ (d ≤ 0 ∧ t ≤ c + d * n)) : between c (c + d * k) t := by
  have hk' : (k : Int) ≤ n := by exact_mod_cast hk
  have hk0 : (0 : Int) ≤ k := Int.natCast_nonneg k
  rcases h with ⟨hd, hle⟩ | ⟨hd, hle⟩
  · have h0 : 0 ≤ d * k := Int.mul_nonneg hd hk0
    have h1 : d * k ≤ d * n := Int.mul_le_mul_of_nonneg_left hk' hd
    exact .inl ⟨by omega, by omega⟩
  · have h0 : d * k ≤ 0 := Int.mul_nonpos_of_nonpos_of_nonneg hd hk0
    have h1 : d * n ≤ d * k := Int.mul_le_mul_of_nonpos_left hd hk'
    exact .inr ⟨by omega, by omega⟩

/-- A value between two words is a word. -/
theorem ofInt_toNat_between {c t : Word} {z : Int} (h : between c.toNat z t.toNat) :
    ((BitVec.ofInt 32 z).toNat : Int) = z := by
  have hc := c.isLt
  have ht := t.isLt
  unfold between at h
  exact ofInt_toNat (by omega) (by omega)

section Ticks

variable {q : Ramp}

/-- A count with more than the last tick to go. -/
theorem cnt_ne_of_one_lt {c : Word} (h : 1 < c.toNat) : c ≠ 0 ∧ c ≠ 1 := by
  refine ⟨?_, ?_⟩ <;> rintro rfl <;> exact absurd h (by decide)

theorem Ramp.next_linear (hm : q.mode = .linear) : q.next = q.nextLinear := by
  rw [Ramp.next, hm]

theorem Ramp.next_exponential (hm : q.mode = .exponential) : q.next = q.nextExponential := by
  rw [Ramp.next, hm]

/-! #### The linear tick -/

theorem Ramp.nextLinear_done (h : q.cnt = 0) : q.nextLinear = q := if_pos h

theorem Ramp.nextLinear_last (h : q.cnt = 1) : q.nextLinear = { q with cnt := 0, cur := q.tgt } := by
  rw [Ramp.nextLinear, h]
  rfl

theorem Ramp.nextLinear_more (h : 1 < q.cnt.toNat) :
    q.nextLinear = { q with
      cnt := q.cnt - 1, cur := BitVec.ofInt 32 ((q.cur.toNat : Int) + q.step.toInt) } := by
  obtain ⟨h0, h1⟩ := cnt_ne_of_one_lt h
  rw [Ramp.nextLinear, if_neg h0, if_neg h1]

/-- The sum of a linear tick does not wrap. -/
theorem Ramp.linearSum_toNat (h : q.Ok) (hm : q.mode = .linear) (hc : 1 < q.cnt.toNat) :
    ((BitVec.ofInt 32 ((q.cur.toNat : Int) + q.step.toInt)).toNat : Int) = q.cur.toNat + q.step.toInt := by
  have hb := between_of_heading (k := 1) (Nat.le_of_lt hc) (h.heading hm (cnt_ne_of_one_lt hc).1)
  rw [Int.natCast_one, Int.mul_one] at hb
  exact ofInt_toNat_between hb

/-! #### The exponential tick -/

/-- The distance to the target. -/
def Ramp.distance (q : Ramp) : Int := (q.tgt.toNat : Int) - q.cur.toNat

/-- How far an exponential tick moves the value. -/
def Ramp.move (q : Ramp) : Nat := ((one31 - 1) + q.distance.natAbs * q.coef.toNat) / one31

theorem Ramp.nextExponential_arrived (h : q.distance = 0) : q.nextExponential = q := if_pos h

theorem Ramp.nextExponential_moving (h : q.distance ≠ 0) :
    q.nextExponential = { q with
      cur := BitVec.ofInt 32 ((q.cur.toNat : Int) + q.distance.sign * q.move) } := by
  refine (if_neg h).trans ?_
  rcases Int.lt_or_lt_of_ne h with hd | hd
  · rw [Int.sign_eq_neg_one_of_neg hd, Int.neg_one_mul, ← Int.sub_eq_add_neg]
    exact if_neg (Int.not_lt.2 (Int.le_of_lt hd))
  · rw [Int.sign_eq_one_of_pos hd, Int.one_mul]
    exact if_pos hd

/-- The move is the ceiling of the distance times the coefficient. -/
theorem Ramp.move_ceiling (q : Ramp) :
    q.distance.natAbs * q.coef.toNat ≤ q.move * 2 ^ 31 ∧
      q.move * 2 ^ 31 < q.distance.natAbs * q.coef.toNat + 2 ^ 31 := by
  unfold Ramp.move
  simp only [one31]
  omega

/-- The sum of an exponential tick lies on the way to the target. -/
theorem Ramp.exponentialSum_between (h : q.Ok) (hd : q.distance ≠ 0) :
    between q.cur.toNat (q.cur.toNat + q.distance.sign * q.move) q.tgt.toNat := by
  obtain ⟨-, hle⟩ := expMove_bounds (Int.natAbs_pos.2 hd) h.coefPos h.coefLe
  change q.move ≤ q.distance.natAbs at hle
  have htgt : (q.tgt.toNat : Int) = q.cur.toNat + q.distance := by unfold Ramp.distance; omega
  rw [htgt]
  rcases Int.lt_or_lt_of_ne hd with hd | hd
  · rw [Int.sign_eq_neg_one_of_neg hd]
    exact .inr ⟨by omega, by omega⟩
  · rw [Int.sign_eq_one_of_pos hd]
    exact .inl ⟨by omega, by omega⟩

end Ticks

/-- Settles O40: the operation is `Ramp.next` on the one ramp, whose invariant keeps both sums on the way to the
target. -/
theorem rmpNextTicks : Obligations.RmpNextTicks := by
  refine fun sel r s hr hi => ⟨fun h => exec_rmpNext_bad hr h, fun q hq => ?_⟩
  intro a d
  have ha : a.Ok := inv_ramp_ok hi q
  have hbuilt : s.poly.toNat ≤ s.voices.length := hi.slots ▸ hi.poly
  have written : ((s.setRamp q a.next).setResult a.next.cur).ramp q = a.next :=
    (setResult_ramp _ _ q).trans (setRamp_ramp_self (selectRamp_isBuilt hbuilt hq) _)
  refine ⟨_, a.next, exec_rmpNext_ok hr hq, (setRamp_onlyRamp s q _).setResult _, written, rfl,
    fun hm hc => ?_, fun hm hc => ?_, fun hm hc => ?_, fun hm hd => ?_, fun hm hd => ?_⟩
  · exact (Ramp.next_linear hm).trans (Ramp.nextLinear_done hc)
  · exact (Ramp.next_linear hm).trans (Ramp.nextLinear_last hc)
  · rw [Ramp.next_linear hm, Ramp.nextLinear_more hc]
    obtain ⟨h0, h1⟩ := cnt_ne_of_one_lt hc
    exact ⟨rfl, (cnt_pred h0 h1).2, Ramp.linearSum_toNat ha hm hc⟩
  · exact (Ramp.next_exponential hm).trans (Ramp.nextExponential_arrived hd)
  · obtain ⟨hlow, hhigh⟩ := a.move_ceiling
    rw [Ramp.next_exponential hm, Ramp.nextExponential_moving hd]
    exact ⟨a.move, hlow, hhigh, rfl, ofInt_toNat_between (Ramp.exponentialSum_between ha hd)⟩

/-! ### What a ramp does over many ticks (43_ramp.md R160) -/

section ManyTicks

variable {q : Ramp}

theorem Ramp.ticks_eq_iterate (n : Nat) (q : Ramp) : Ramp.ticks n q = Ramp.next^[n] q := by
  induction n generalizing q with
  | zero => rfl
  | succ n ih => exact ih q.next

theorem Ramp.ticks_succ (n : Nat) (q : Ramp) : Ramp.ticks (n + 1) q = (Ramp.ticks n q).next := by
  rw [Ramp.ticks_eq_iterate, Ramp.ticks_eq_iterate, Function.iterate_succ_apply']

/-- One tick moves the value towards the target and not past it. -/
theorem Ramp.next_between (h : q.Ok) : between q.cur.toNat q.next.cur.toNat q.tgt.toNat := by
  cases hm : q.mode
  case linear =>
    rw [Ramp.next_linear hm]
    exact (Ramp.nextLinear_spec h hm).2
  case exponential =>
    rw [Ramp.next_exponential hm]
    exact (Ramp.nextExponential_spec h hm).2.1

/-- A further step towards the end stays on the way from the start. -/
theorem between_trans {a b b' c : Int} (h : between a b c) (h' : between b b' c) : between a b' c := by
  unfold between at *
  omega

theorem Ramp.ticks_succ_between (h : q.Ok) (n : Nat) :
    between (Ramp.ticks n q).cur.toNat (Ramp.ticks (n + 1) q).cur.toNat q.tgt.toNat := by
  have hb := Ramp.next_between (Ramp.ticks_ok h n)
  rwa [Ramp.ticks_tgt, ← Ramp.ticks_succ] at hb

theorem Ramp.ticks_between (h : q.Ok) (n : Nat) :
    between q.cur.toNat (Ramp.ticks n q).cur.toNat q.tgt.toNat := by
  induction n with
  | zero =>
    show between (q.cur.toNat : Int) q.cur.toNat q.tgt.toNat
    unfold between
    omega
  | succ n ih => exact between_trans ih (Ramp.ticks_succ_between h n)

end ManyTicks

/-- Settles O41: every tick is a step towards the fixed target. -/
theorem rampNeverOvershoots : Obligations.RampNeverOvershoots :=
  fun q h => ⟨fun k => ⟨Ramp.ticks_tgt k q, Ramp.ticks_between h k, Ramp.ticks_succ_between h k⟩,
    fun x => ⟨Ramp.setTarget_ok h x, fun hs => Ramp.setTarget_cur hs x⟩⟩

/-! ### The arrival of a linear ramp (43_ramp.md R160 (d)) -/

/-- The linear ramp `q`, `k` ticks after it got the target `x` and before it arrives. -/
def Ramp.gliding (q : Ramp) (x : Word) (k : Nat) : Ramp :=
  { q with
    tgt := x
    cnt := BitVec.ofNat 32 (q.steps.toNat - k)
    step := rampStep q.cur x q.steps
    cur := BitVec.ofInt 32 (q.cur.toNat + (rampStep q.cur x q.steps).toInt * k) }

/-- The linear ramp `q` from the tick at which it arrives at the target `x`. -/
def Ramp.arrived (q : Ramp) (x : Word) : Ramp :=
  { q with tgt := x, cnt := 0, step := rampStep q.cur x q.steps, cur := x }

section Linear

variable {q : Ramp} {x : Word} {k : Nat}

theorem Ramp.gliding_cnt_toNat (q : Ramp) (x : Word) (k : Nat) : (q.gliding x k).cnt.toNat = q.steps.toNat - k :=
  toNat_ofNat_of_lt (Nat.lt_of_le_of_lt (Nat.sub_le _ _) q.steps.isLt)

/-- `k` steps of a fresh ramp stay on the way to its target, so that they do not wrap. -/
theorem Ramp.gliding_cur_toNat (h : q.steps ≠ 0) (hk : k ≤ q.steps.toNat) :
    ((q.gliding x k).cur.toNat : Int) = q.cur.toNat + (rampStep q.cur x q.steps).toInt * k := by
  have hpos : 0 < q.steps.toNat := Nat.pos_of_ne_zero fun e => h (BitVec.eq_of_toNat_eq e)
  refine ofInt_toNat_between (c := q.cur) (t := x) (between_of_heading hk ?_)
  rw [rampStep_toInt h]
  rcases tdiv_mul_between ((x.toNat : Int) - q.cur.toNat) hpos with ⟨hd, hle⟩ | ⟨hd, hle⟩
  · exact .inl ⟨hd, by omega⟩
  · exact .inr ⟨hd, by omega⟩

theorem Ramp.setTarget_eq_gliding (h : q.steps ≠ 0) (hm : q.mode = .linear) (hx : x ≠ q.tgt) :
    q.setTarget x = q.gliding x 0 := by
  rw [Ramp.setTarget_linear h hm hx, Ramp.gliding]
  simp

theorem Ramp.next_gliding (h : q.steps ≠ 0) (hm : q.mode = .linear) (hk : k + 1 < q.steps.toNat) :
    (q.gliding x k).next = q.gliding x (k + 1) := by
  have hcnt := q.gliding_cnt_toNat x k
  have hcur := Ramp.gliding_cur_toNat (x := x) h (Nat.le_of_lt (Nat.lt_of_succ_lt hk))
  have hpred : (q.gliding x k).cnt - 1 = BitVec.ofNat 32 (q.steps.toNat - (k + 1)) := by
    apply BitVec.eq_of_toNat_eq
    bv_omega
  rw [Ramp.next_linear (q := q.gliding x k) hm, Ramp.nextLinear_more (by omega), hpred, hcur]
  simp only [Ramp.gliding, Nat.cast_succ, Int.mul_add, Int.mul_one, Int.add_assoc]

/-- The last tick. -/
theorem Ramp.next_gliding_last (x : Word) (hm : q.mode = .linear) (hk : k + 1 = q.steps.toNat) :
    (q.gliding x k).next = q.arrived x := by
  have hcnt : (q.gliding x k).cnt = 1 :=
    BitVec.eq_of_toNat_eq ((q.gliding_cnt_toNat x k).trans (by rw [← hk, Nat.add_sub_cancel_left]; rfl))
  rw [Ramp.next_linear (q := q.gliding x k) hm, Ramp.nextLinear_last hcnt]
  rfl

theorem Ramp.ticks_gliding (h : q.steps ≠ 0) (hm : q.mode = .linear) (hk : k < q.steps.toNat) :
    Ramp.ticks k (q.gliding x 0) = q.gliding x k := by
  induction k with
  | zero => rfl
  | succ k ih =>
    rw [Ramp.ticks_succ, ih (by omega)]
    exact Ramp.next_gliding h hm hk

/-- A linear ramp that has arrived rests. -/
theorem Ramp.ticks_rest {a : Ramp} (hm : a.mode = .linear) (hc : a.cnt = 0) (n : Nat) : Ramp.ticks n a = a := by
  induction n with
  | zero => rfl
  | succ n ih => rw [Ramp.ticks_succ, ih, Ramp.next_linear hm, Ramp.nextLinear_done hc]

theorem Ramp.ticks_add (m n : Nat) (q : Ramp) : Ramp.ticks (m + n) q = Ramp.ticks m (Ramp.ticks n q) := by
  simp only [Ramp.ticks_eq_iterate, Function.iterate_add_apply]

end Linear

/-- Settles O42: the ramp is `Ramp.gliding` until its last tick, and rests after it. -/
theorem linearRampArrives : Obligations.LinearRampArrives := by
  intro q x hm h hx
  rw [Ramp.setTarget_eq_gliding h hm hx]
  refine ⟨fun k hk => ?_, fun k hk => ?_⟩
  · rw [Ramp.ticks_gliding h hm hk, Ramp.gliding_cur_toNat h (Nat.le_of_lt hk), rampStep_toInt h, Int.mul_comm]
  · obtain ⟨n, hn⟩ : ∃ n, q.steps.toNat = n + 1 :=
      Nat.exists_eq_succ_of_ne_zero fun e => h (BitVec.eq_of_toNat_eq e)
    have last : Ramp.ticks (n + 1) (q.gliding x 0) = q.arrived x := by
      rw [Ramp.ticks_succ, Ramp.ticks_gliding h hm (by omega), Ramp.next_gliding_last x hm hn.symm]
    obtain ⟨m, rfl⟩ := Nat.exists_eq_add_of_le' (hn ▸ hk)
    rw [Ramp.ticks_add, last, Ramp.ticks_rest (a := q.arrived x) hm rfl]
    rfl

/-! ### The arrival of an exponential ramp (43_ramp.md R160 (d)) -/

section Exponential

variable {q : Ramp}

/-- A tick keeps the shape (R158). -/
theorem Ramp.next_mode (q : Ramp) : q.next.mode = q.mode := by
  unfold Ramp.next
  split
  · unfold Ramp.nextLinear
    split_ifs <;> rfl
  · simp only [Ramp.nextExponential]
    split_ifs <;> rfl

theorem Ramp.ticks_mode (n : Nat) (q : Ramp) : (Ramp.ticks n q).mode = q.mode := by
  induction n generalizing q with
  | zero => rfl
  | succ n ih => exact (ih q.next).trans q.next_mode

theorem Ramp.cur_eq_tgt_of_distance (h : q.distance.natAbs = 0) : q.cur = q.tgt := by
  unfold Ramp.distance at h
  exact BitVec.eq_of_toNat_eq (by omega)

/-- A tick away from the target comes at least 1 closer. -/
theorem Ramp.distance_next_le (h : q.Ok) (hm : q.mode = .exponential) :
    q.next.distance.natAbs ≤ q.distance.natAbs - 1 := by
  obtain ⟨-, hb, hmove⟩ := Ramp.nextExponential_spec h hm
  have htgt := q.next_tgt
  rw [← Ramp.next_exponential hm] at hb hmove
  have hmove' : q.cur.toNat ≠ q.tgt.toNat → q.next.cur.toNat ≠ q.cur.toNat := fun hne e =>
    hmove (fun e' => hne (congrArg BitVec.toNat e')) (BitVec.eq_of_toNat_eq e)
  unfold Ramp.distance
  rw [htgt]
  unfold between at hb
  omega

theorem Ramp.distance_ticks_le (h : q.Ok) (hm : q.mode = .exponential) (n : Nat) :
    (Ramp.ticks n q).distance.natAbs ≤ q.distance.natAbs - n := by
  induction n with
  | zero => exact Nat.le_refl _
  | succ n ih =>
    have hstep := Ramp.distance_next_le (Ramp.ticks_ok h n) ((Ramp.ticks_mode n q).trans hm)
    rw [Ramp.ticks_succ]
    omega

end Exponential

/-- Settles O43: the distance falls by at least 1 a tick, so it is 0 from the tick whose number it was. -/
theorem exponentialRampArrives : Obligations.ExponentialRampArrives := by
  refine fun q hm h => ⟨q.distance.natAbs, fun k hk => ?_⟩
  have hzero : (Ramp.ticks k q).distance.natAbs = 0 := by
    have hle := Ramp.distance_ticks_le h hm k
    omega
  exact (Ramp.cur_eq_tgt_of_distance hzero).trans (Ramp.ticks_tgt k q)

end Sys2Proof.Machine


/-! PROOFS of the family 44_filter.md: `FLT.COEF` (R171), `FLT.NEXT` (R172) and `FLT.CLEAR` (R173). -/

namespace Sys2Proof.Machine

section Filter

/-! ### The coefficient (44_filter.md R171) -/

section Coefficient

variable {s : State} {fs : Word}

/-- The clip keeps the coefficient in 16 bits, so nothing is lost where it is stored. -/
theorem filterCoef_toNat (b : Config.Build) (cutoff fs : Word) :
    (filterCoef b cutoff fs).toNat = min one15 (cutoff.toNat * b.twoPiQ16 / (fs.toNat * 2 ^ 17)) := by
  rw [filterCoef, toNat_ofNat_of_lt (Nat.lt_of_le_of_lt (Nat.min_le_right _ _) (by decide)), Nat.min_comm,
    Nat.mul_comm b.twoPiQ16, Nat.mul_comm (2 ^ 17)]

theorem exec_fltCoef_zero (hr : s.ready) (cutoff : Word) :
    exec (.fltCoef cutoff 0) s = .next (s.raise .badOperand (encode (.fltCoef cutoff 0)).w0) := by
  show execFltCoef cutoff 0 s = _
  rw [execFltCoef, if_pos rfl]
  exact renderCommand_error hr.1 fun _ => hr.2

theorem exec_fltCoef_ok (hr : s.ready) (hfs : fs ≠ 0) (cutoff : Word) :
    exec (.fltCoef cutoff fs) s = .next (s.loadFilterCoef cutoff fs) := by
  show execFltCoef cutoff fs s = _
  rw [execFltCoef, if_neg hfs]
  exact renderCommand_ok hr.1 fun _ => hr.2

end Coefficient

/-- Settles O44: the sample rate decides the case, and `filterCoef_toNat` computes what is loaded. -/
theorem fltCoefComputes : Obligations.FltCoefComputes := by
  refine fun cutoff fs s hr => ⟨?_, fun hfs => ?_⟩
  · rintro rfl
    exact exec_fltCoef_zero hr cutoff
  · exact ⟨filterCoef s.build cutoff fs, exec_fltCoef_ok hr hfs cutoff, filterCoef_toNat s.build cutoff fs⟩

/-! ### One sample (44_filter.md R172) -/

section Sample

variable {v : Octet} {x : Word} {s : State}

/-- `sext_16` of a sample operand, which is in range already. -/
theorem sext16_sampleOperand (x : Word) : sext16 (sampleOperand x) = (x.setWidth 16).toInt := by
  rw [sext16, sampleOperand, BitVec.ofInt_toInt, BitVec.setWidth_eq_extractLsb' (by decide)]

/-- A word holds the filter's output exactly. -/
theorem wordOfInt_filterOut_toInt (y : Word) : (wordOfInt (filterOut y)).toInt = y.toInt / 2 ^ 16 := by
  obtain ⟨hlow, hhigh⟩ := filterOut_range y
  exact wordOfInt_toInt (by omega) (by omega)

/-- `FLT.NEXT` with its operand in range: `filterNext` on the one filter state, `filterOut` of it as the response. -/
theorem exec_fltNext_ok (hr : s.ready) (hi : s.Inv) (hv : v.toNat < s.poly.toNat) :
    let y' := filterNext s.filtEn s.filtA (s.voice v.toNat).filtY (sampleOperand x)
    ∃ t, exec (.fltNext v x) s = .next t ∧ s.OnlySlot t v.toNat ∧
      t.voice v.toNat = { s.voice v.toNat with filtY := y' } ∧ t.result = wordOfInt (filterOut y') := by
  have hbuilt : v.toNat < s.voices.length := hi.slots ▸ Nat.lt_of_lt_of_le hv hi.poly
  refine ⟨_, voiceCommand_ok hr hv, (updVoice_onlySlot _ _ _).setResult _, ?_, rfl⟩
  rw [setResult_voice, updVoice_voice_self hbuilt]

end Sample

/-- Settles O45: `filterNext_toInt` computes and bounds the new state, the coefficient being at most 1.0 by the
invariant. -/
theorem fltNextFilters : Obligations.FltNextFilters := by
  refine fun v x s hr hi => ⟨fun hv => voiceCommand_bad hr hv, fun hv => ?_⟩
  intro y xs
  obtain ⟨t, hexec, honly, hslot, hresult⟩ := exec_fltNext_ok (x := x) hr hi hv
  obtain ⟨hexact, hbetween⟩ := filterNext_toInt (s.voice v.toNat).filtY (sampleOperand x) hi.filtA s.filtEn
  rw [sext16_sampleOperand] at hexact hbetween
  exact ⟨t, _, hexec, honly, hslot, hexact, hbetween, hresult ▸ wordOfInt_filterOut_toInt _⟩

/-! ### The clear (44_filter.md R173) -/

/-- Settles O46: the clear changes the filter state of the one slot. -/
theorem fltClearZeroes : Obligations.FltClearZeroes :=
  fun _ _ hr hbuilt => ⟨fun hv => voiceCommand_bad hr hv, fun hv => voiceCommand_slot hr hv hbuilt⟩

end Filter

end Sys2Proof.Machine


/-! PROOFS of the family 45_voice.md: the updates of a voice (R182 to R184), its release (R185), the samples of an
active and of an inactive voice (R186, R188), and `V.RENDER` (R187). -/

namespace Sys2Proof.Machine

/-! ### Updates and release (45_voice.md R182 to R185) -/

section Updates

variable {i : Instr} {v : Octet} {x : Voice} {s : State}

/-- A UQ1.15 operand as a ramp target, in the order in which the statements multiply. -/
theorem clamp15Target_toNat_mul (w : Word) : (clamp15Target w).toNat = min (w.toNat % 2 ^ 16) 0x8000 * 2 ^ 16 :=
  (clamp15Target_toNat w).trans (Nat.mul_comm _ _)

theorem Voice.setPressure_of_free (h : x.vstate = .free) (w : Word) : x.setPressure w = x := if_pos h

theorem Voice.setPressure_of_held (h : x.vstate ≠ .free) (w : Word) :
    x.setPressure w = { x with pressure := x.pressure.setTarget (clamp15Target w) } := if_neg h

theorem Voice.setPitch_of_free (h : x.vstate = .free) (f : Word) : x.setPitch f = x := if_pos h

theorem Voice.setPitch_of_held (h : x.vstate ≠ .free) (f : Word) :
    x.setPitch f = { x with frequency := x.frequency.setTarget f } := if_neg h

theorem Voice.setTimbre_of_free (h : x.vstate = .free) (w : Word) : x.setTimbre w = x := if_pos h

theorem Voice.setTimbre_of_held (h : x.vstate ≠ .free) (w : Word) :
    x.setTimbre w = { x with timbre := x.timbre.setTarget (clamp15Target w) } := if_neg h

theorem Voice.release_of_assigned (h : x.vstate = .assigned) :
    x.release = { x with vstate := .releasing, env := x.env.noteOff } := if_pos h

theorem Voice.release_of_not_assigned (h : x.vstate ≠ .assigned) : x.release = x := if_neg h

/-- A slot changed by an operation that leaves its voice as it is. -/
theorem updVoice_of_fixed {v : Nat} {g : Voice → Voice} (h : g (s.voice v) = s.voice v) : s.updVoice v g = s := by
  rw [State.updVoice, h, setVoice_voice]

/-- A command that leaves the voice as it is does nothing. -/
theorem voiceCommand_fixed {g : Voice → Voice} (hr : s.ready) (hv : v.toNat < s.poly.toNat)
    (h : g (s.voice v.toNat) = s.voice v.toNat) :
    renderCommand i s (if !s.voiceOk v then .error .badIndex else .ok (s.updVoice v.toNat g)) = .next s := by
  rw [updVoice_of_fixed h]
  exact voiceCommand_ok hr hv

/-- A command that changes one slot, whose voice is known to become `y`. -/
theorem voiceCommand_becomes {g : Voice → Voice} {y : Voice} (hr : s.ready) (hv : v.toNat < s.poly.toNat)
    (hbuilt : s.poly.toNat ≤ s.voices.length) (h : g (s.voice v.toNat) = y) :
    ∃ t, renderCommand i s (if !s.voiceOk v then .error .badIndex else .ok (s.updVoice v.toNat g)) = .next t ∧
      s.OnlySlot t v.toNat ∧ t.result = s.result ∧ t.voice v.toNat = y :=
  h ▸ voiceCommand_slot hr hv hbuilt

end Updates

/-- Settles O48: each command is its operation on the one voice, which leaves a Free voice as it is. -/
theorem voiceUpdatesRetarget : Obligations.VoiceUpdatesRetarget := by
  refine fun v a s hr hbuilt => ⟨fun hv => ?_, fun hv hfree => ?_, fun hv hheld => ?_⟩
  · exact ⟨voiceCommand_bad hr hv, voiceCommand_bad hr hv, voiceCommand_bad hr hv⟩
  · exact ⟨voiceCommand_fixed hr hv (Voice.setPressure_of_free hfree a),
      voiceCommand_fixed hr hv (Voice.setPitch_of_free hfree a),
      voiceCommand_fixed hr hv (Voice.setTimbre_of_free hfree a)⟩
  · exact ⟨clamp15Target a, clamp15Target_toNat_mul a,
      voiceCommand_becomes hr hv hbuilt (Voice.setPressure_of_held hheld a),
      voiceCommand_becomes hr hv hbuilt (Voice.setPitch_of_held hheld a),
      voiceCommand_becomes hr hv hbuilt (Voice.setTimbre_of_held hheld a)⟩

/-- Settles O49: the operation is `Env.noteOff` on an Assigned voice and nothing on any other. -/
theorem vReleaseReleases : Obligations.VReleaseReleases := fun _ _ hr hbuilt =>
  ⟨fun hv => voiceCommand_bad hr hv,
    fun hv hother => voiceCommand_fixed hr hv (Voice.release_of_not_assigned hother),
    fun hv hheld => voiceCommand_becomes hr hv hbuilt (Voice.release_of_assigned hheld)⟩

/-! ### The range check of `V.RENDER` (45_voice.md R187, R188 (c)) -/

section Range

variable {v : Octet} {start ns : Word} {s : State}

theorem exec_vRender_ok (hr : s.ready) (hv : v.toNat < s.poly.toNat)
    (hn : start.toNat + ns.toNat ≤ s.numSamp.toNat) :
    exec (.vRender v start ns) s = .next (State.renderRun v.toNat ns.toNat start.toNat s) := by
  show execVRender v start ns s = _
  rw [execVRender, if_neg (Nat.not_lt.2 hn)]
  exact voiceCommand_ok hr hv

/-- The voice index is checked first, the sample range next; both raise the same fault. -/
theorem exec_vRender_bad (hr : s.ready)
    (h : s.poly.toNat ≤ v.toNat ∨ s.numSamp.toNat < start.toNat + ns.toNat) :
    exec (.vRender v start ns) s = .next (s.raise .badIndex (encode (.vRender v start ns)).w0) := by
  show execVRender v start ns s = _
  by_cases hv : s.poly.toNat ≤ v.toNat
  · exact voiceCommand_bad hr hv
  · have hrange : s.numSamp.toNat < start.toNat + ns.toNat := h.resolve_left hv
    rw [execVRender, if_pos hrange, ite_self]
    exact renderCommand_error hr.1 fun _ => hr.2

end Range

/-! ### A run of samples (45_voice.md R187) -/

section Run

variable {s t : State} {v a b : Nat}

/-- A run is its first part followed by the rest. -/
theorem renderRun_add (v j k n : Nat) (s : State) :
    State.renderRun v (j + k) n s = State.renderRun v k (n + j) (State.renderRun v j n s) := by
  induction j generalizing n s with
  | zero => rw [Nat.zero_add]; rfl
  | succ j ih =>
    have hstart : n + (j + 1) = n + 1 + j := by omega
    rw [Nat.succ_add, hstart]
    exact ih (n + 1) (s.sampleVoice v n)

theorem VoiceFrame.ready (h : VoiceFrame v a b s t) (hr : s.ready) : t.ready := by
  rw [h.rest]
  exact hr

theorem VoiceFrame.poly (h : VoiceFrame v a b s t) : t.poly = s.poly := by rw [h.rest]

theorem VoiceFrame.numSamp (h : VoiceFrame v a b s t) : t.numSamp = s.numSamp := by rw [h.rest]

/-- A run as two commands: the block stays ready, and the sum of the two starts does not wrap. -/
theorem exec_vRender_parts {v : Octet} {start ns a b : Word} (hr : s.ready) (hv : v.toNat < s.poly.toNat)
    (hn : start.toNat + ns.toNat ≤ s.numSamp.toNat) (hab : a.toNat + b.toNat = ns.toNat) :
    ∃ t u, exec (.vRender v start a) s = .next t ∧ exec (.vRender v (start + a) b) t = .next u ∧
      exec (.vRender v start ns) s = .next u := by
  have hstart : (start + a).toNat = start.toNat + a.toNat :=
    BitVec.toNat_add_of_lt (Nat.lt_of_le_of_lt (by omega) s.numSamp.isLt)
  have frame := renderRun_frame v.toNat a.toNat start.toNat s (Nat.le_refl _) (Nat.le_refl _)
  have hrest : (start + a).toNat + b.toNat ≤
      (State.renderRun v.toNat a.toNat start.toNat s).numSamp.toNat := by
    rw [frame.numSamp]
    omega
  refine ⟨_, _, exec_vRender_ok hr hv (by omega),
    exec_vRender_ok (frame.ready hr) (by rwa [frame.poly]) hrest, ?_⟩
  rw [exec_vRender_ok hr hv hn, ← hab, renderRun_add, hstart]

end Run

/-- Settles O50: the command is `State.renderRun`, which `renderRun_add` cuts in two and `renderRun_frame` bounds. -/
theorem vRenderRunsSamples : Obligations.VRenderRunsSamples := by
  refine fun v start ns s hr hi => ⟨fun h => exec_vRender_bad hr h, fun hv hn => ⟨?_, fun a b hab => ?_, ?_⟩⟩
  · rintro rfl
    exact exec_vRender_ok hr hv hn
  · exact exec_vRender_parts hr hv hn hab
  · have frame := renderRun_frame v.toNat ns.toNat start.toNat s (Nat.le_refl _) (Nat.le_refl _)
    refine ⟨_, exec_vRender_ok hr hv hn, rfl, frame.rest, frame.slots, frame.others, ?_⟩
    rw [frame.build]
    exact (frame.words hi.out).2

/-! ### An inactive voice (45_voice.md R186, R188 (a)) -/

section Idle

variable {s : State} {v : Nat}

theorem sampleVoice_of_idle (h : (s.voice v).env.stage = .idle) (n : Nat) :
    s.sampleVoice v n = s.updVoice v Voice.clearNote := if_pos h

/-- A sample leaves a voice that is inactive and cleared as it is, and emits nothing. -/
theorem renderRun_of_cleared (h : (s.voice v).env.stage = .idle) (hc : (s.voice v).clearNote = s.voice v) (k n : Nat) :
    State.renderRun v k n s = s :=
  renderRun_induct (P := (· = s)) v
    (fun _ n e => e ▸ (sampleVoice_of_idle h n).trans (updVoice_of_fixed hc)) k n s rfl

/-- The first sample of a run clears an inactive voice, and the others change nothing. -/
theorem renderRun_of_idle (hbuilt : v < s.voices.length) (h : (s.voice v).env.stage = .idle) {k : Nat} (hk : k ≠ 0)
    (n : Nat) : State.renderRun v k n s = s.updVoice v Voice.clearNote := by
  obtain ⟨j, rfl⟩ := Nat.exists_eq_succ_of_ne_zero hk
  have slot := updVoice_voice_self hbuilt Voice.clearNote
  rw [State.renderRun, sampleVoice_of_idle h]
  exact renderRun_of_cleared (by rw [slot]; exact h) (by rw [slot]; rfl) j (n + 1)

end Idle

/-- Settles O52: the run is one `Voice.clearNote`, which does not touch the output buffer. -/
theorem idleVoiceIsSilent : Obligations.IdleVoiceIsSilent := by
  intro v start ns s hr hbuilt hv hn hns hidle
  have hslot : v.toNat < s.voices.length := Nat.lt_of_lt_of_le hv hbuilt
  have hpos : ns.toNat ≠ 0 := fun e => hns (BitVec.eq_of_toNat_eq e)
  refine ⟨s.updVoice v.toNat Voice.clearNote, ?_, updVoice_onlySlot s _ _, rfl, updVoice_voice_self hslot _⟩
  rw [exec_vRender_ok hr hv hn, renderRun_of_idle hslot hidle hpos]

/-! ### A sounding voice (45_voice.md R186) -/

section Sounding

variable {s : State} {v : Nat} {n : Word}

theorem sampleVoice_of_sounding (h : (s.voice v).env.stage ≠ .idle) (n : Nat) :
    s.sampleVoice v n = { s.setVoice v ((s.voice v).sounded s) with
      out := mixAddAll s.build s.out s.numCh.toNat n (filterOut ((s.voice v).sounded s).filtY) } := if_neg h

/-- The filter's input of one sample (R186); `Voice.sounded_filtY` says that the datapath uses it. -/
def Voice.filterInput (s : State) (x : Voice) : Int :=
  voiceInput (x.mixedSample s.build s.mixActive) (x.env.next s.envParams).level
    (ampGain s.cfgAmpScale x.pressure.next.cur)

theorem Voice.sounded_filtY (s : State) (x : Voice) :
    (x.sounded s).filtY = filterNext s.filtEn s.filtA x.filtY (x.filterInput s) := rfl

/-- The cross-faded sample is a Q1.15 value, as the two it lies between are. -/
theorem Voice.mixedSample_range {b : Config.Build} (hb : b.Legal) {m : Word} (hm : m.toNat ≤ one31) (x : Voice) :
    -2 ^ 15 ≤ x.mixedSample b m ∧ x.mixedSample b m < 2 ^ 15 := by
  have h0 := oscSample_range hb (oscTable b 0) x.osc0.phase
  have h1 := oscSample_range hb (oscTable b 1) x.osc1.phase
  have hbetween := crossFade_between (top16_le hm) (oscSample b (oscTable b 0) x.osc0.phase)
    (oscSample b (oscTable b 1) x.osc1.phase)
  unfold Voice.mixedSample
  unfold between at hbetween
  omega

/-- The filter's input is its own low 16 bits while the pressure is at most 1.0 (R32; log 16). -/
theorem Voice.sext16_filterInput (hi : s.Inv) {x : Voice} (hx : x.Ok) (hp : x.pressure.next.cur.toNat ≤ one31) :
    sext16 (x.filterInput s) = x.filterInput s := by
  obtain ⟨hlow, hhigh⟩ := x.mixedSample_range hi.legal hi.mixActive
  obtain ⟨hlow', hhigh'⟩ := voiceInput_range hlow hhigh (Env.next_ok hx.env hi.sus).level (ampGain_le hi.amp hp)
  exact sext16_of_range hlow' hhigh'

/-- In a kept geometry the word of sample `n` of every channel exists (R24, R62, R200). -/
theorem inv_outExists (hi : s.Inv) (hn : n.toNat < s.numSamp.toNat) {c : Nat} (hc : c < s.numCh.toNat) :
    outExists s.build c n.toNat :=
  ⟨Nat.lt_of_lt_of_le hc hi.numCh, Nat.lt_of_lt_of_le hn (Nat.le_trans hi.numSamp hi.maxblk)⟩

/-- A sample inside the geometry is added into its word of every channel, and into no other word. -/
theorem readOut_mixAddAll_geometry (hi : s.Inv) (hn : n.toNat < s.numSamp.toNat) (y : Int) (c k : Nat) :
    readOut s.build (mixAddAll s.build s.out s.numCh.toNat n.toNat y) c k =
      if c < s.numCh.toNat ∧ k = n.toNat then wordOfInt ((readOut s.build s.out c k).toInt + y)
      else readOut s.build s.out c k := by
  rw [readOut_mixAddAll hi.out]
  exact if_congr ⟨fun ⟨hc, hk, _⟩ => ⟨hc, hk⟩, fun ⟨hc, hk⟩ => ⟨hc, hk, inv_outExists hi hn hc⟩⟩ rfl rfl

/-- A command of one sample is that sample. -/
theorem exec_vRender_one {v : Octet} (hr : s.ready) (hv : v.toNat < s.poly.toNat) (hn : n.toNat < s.numSamp.toNat) :
    exec (.vRender v n 1) s = .next (s.sampleVoice v.toNat n.toNat) :=
  exec_vRender_ok hr hv hn

end Sounding

/-- Settles O51: the sample is `Voice.sounded` in the slot and its `filterOut` in the words; `filterNext_toInt` computes
the filter state, whose input `Voice.sext16_filterInput` shows to be exact. -/
theorem vSampleDatapath : Obligations.VSampleDatapath := by
  intro v n s hr hi hv hn hstage x s0 s1 m15 smp e e15 g input xs y
  have hslot : v.toNat < s.voices.length := hi.slots ▸ Nat.lt_of_lt_of_le hv hi.poly
  have frame := sampleVoice_frame s v.toNat n.toNat (Nat.le_refl _) (Nat.lt_succ_self _)
  have slot : (s.sampleVoice v.toNat n.toNat).voice v.toNat = x.sounded s := by
    rw [sampleVoice_of_sounding hstage]
    exact (voice_setVoice s v.toNat v.toNat _).trans (if_pos ⟨rfl, hslot⟩)
  have inputExact (hp : x.pressure.next.cur.toNat ≤ 2 ^ 31) : xs = input * 2 ^ 16 :=
    congrArg (· * 2 ^ 16) (Voice.sext16_filterInput hi (inv_voice_ok hi v.toNat) hp)
  have filtered : (x.sounded s).filtY.toInt =
      if s.cfgCtrl.getLsbD 2 then y + (s.filtA.toNat : Int) * (xs - y) / 2 ^ 15 else xs := by
    rw [Voice.sounded_filtY]
    exact (filterNext_toInt x.filtY (x.filterInput s) hi.filtA s.filtEn).1
  have words (c k : Nat) : readOut (s.sampleVoice v.toNat n.toNat).build (s.sampleVoice v.toNat n.toNat).out c k =
      if c < s.numCh.toNat ∧ k = n.toNat
      then BitVec.ofInt 32 ((readOut s.build s.out c k).toInt + (x.sounded s).filtY.toInt / 2 ^ 16)
      else readOut s.build s.out c k := by
    rw [sampleVoice_of_sounding hstage]
    exact readOut_mixAddAll_geometry hi hn _ c k
  exact ⟨_, oscIncrement x.frequency.next.cur s.srate, (x.sounded s).osc0.phase, (x.sounded s).osc1.phase,
    (x.sounded s).filtY, exec_vRender_one hr hv hn, frame.rest, frame.slots, frame.others, inputExact,
    oscIncrement_toNat _ _, BitVec.toNat_add _ _, BitVec.toNat_add _ _, filtered, slot, words⟩

end Sys2Proof.Machine


/-! PROOFS of the family 46_mixer.md: `MIX.ACC` (R195, R197), the reads of the buffer (R198, R199) with the audio
read-out (R75), and the bound that the body step keeps on every word (R200). -/

namespace Sys2Proof.Machine

/-! ### `MIX.ACC` (46_mixer.md R195, R197) -/

section MixAcc

variable {i : Half} {x : Word} {s : State}

/-- The operand that is added is the low half of its word, signed (R92). -/
theorem sampleOperand_eq_setWidth (x : Word) : sampleOperand x = (x.setWidth 16).toInt := by
  rw [sampleOperand, BitVec.setWidth_eq_extractLsb' (by decide)]

theorem exec_mixAcc_bad (hr : s.ready) (h : s.numSamp.toNat ≤ i.toNat) :
    exec (.mixAcc i x) s = .next (s.raise .badIndex (encode (.mixAcc i x)).w0) := by
  show execMixAcc i x s = _
  rw [execMixAcc, if_pos h]
  exact renderCommand_error hr.1 fun _ => hr.2

theorem exec_mixAcc_ok (hr : s.ready) (h : i.toNat < s.numSamp.toNat) :
    exec (.mixAcc i x) s =
      .next { s with out := mixAddAll s.build s.out s.numCh.toNat i.toNat (sampleOperand x) } := by
  show execMixAcc i x s = _
  rw [execMixAcc, if_neg (Nat.not_le.2 h)]
  exact renderCommand_ok hr.1 fun _ => hr.2

/-- Settles O54: the one check decides the case, and `readOut_mixAddAll_geometry` says what the addition leaves. -/
theorem mixAccAdds : Obligations.MixAccAdds := by
  intro i x s hr hi
  refine ⟨fun hbad => exec_mixAcc_bad hr hbad, fun hin => ⟨_, exec_mixAcc_ok hr hin, rfl, fun c n => ?_⟩⟩
  have hindex : (i.setWidth 32 : Word).toNat = i.toNat := BitVec.toNat_setWidth_of_le (by decide)
  have added := readOut_mixAddAll_geometry hi (hindex.trans_lt hin) (sampleOperand x) c n
  rwa [hindex, sampleOperand_eq_setWidth] at added

end MixAcc

/-! ### The reads of the buffer (46_mixer.md R198, R199; 20_memory.md R75) -/

section MixReads

variable {i : Instr} {c : Octet} {k : Half} {s t : State} {e : Effect}

theorem inGeometry_iff : s.inGeometry c k = true ↔ c.toNat < s.numCh.toNat ∧ k.toNat < s.numSamp.toNat := by
  simp [State.inGeometry]

/-- A read of a word of the geometry has its effect. -/
theorem geometryCommand_ok (hr : s.ready) (hc : c.toNat < s.numCh.toNat) (hk : k.toNat < s.numSamp.toNat) :
    renderCommand i s (if !s.inGeometry c k then .error .badIndex else .ok t) = .next t := by
  rw [inGeometry_iff.2 ⟨hc, hk⟩]
  exact renderCommand_ok hr.1 fun _ => hr.2

/-- A read outside the geometry, by its channel or by its sample. -/
theorem geometryCommand_bad (hr : s.ready) (h : s.numCh.toNat ≤ c.toNat ∨ s.numSamp.toNat ≤ k.toNat) :
    renderCommand i s (if !s.inGeometry c k then .error .badIndex else e) =
      .next (s.raise .badIndex (encode i).w0) := by
  have hout : s.inGeometry c k = false := by
    rw [Bool.eq_false_iff, Ne, inGeometry_iff]
    omega
  rw [hout]
  exact renderCommand_error hr.1 fun _ => hr.2

/-- The response word holds a clipped value exactly (R199). -/
theorem wordOfInt_sat16_toInt (k : Int) : (wordOfInt (sat16 k)).toInt = sat16 k := by
  have hlow : -32768 ≤ sat16 k := le_max_left _ _
  have hhigh : sat16 k ≤ 32767 := max_le (by decide) (min_le_left _ _)
  exact wordOfInt_toInt (by omega) (by omega)

/-- The sink hears a word of the geometry, clipped, once a `RENDER` has completed and while none is in progress. -/
theorem audioRead_of_heard {c n : Nat} (hc : c < s.numCh.toNat) (hn : n < s.numSamp.toNat)
    (hr : s.rendered = true) (hp : s.phase = .idle) :
    s.audioRead c n = some (sat16 (readOut s.build s.out c n).toInt) := if_pos ⟨hr, hp, hc, hn⟩

/-- At any other time or place the sink hears nothing. -/
theorem audioRead_of_unheard {c n : Nat}
    (h : s.numCh.toNat ≤ c ∨ s.numSamp.toNat ≤ n ∨ s.rendered = false ∨ s.phase ≠ .idle) :
    s.audioRead c n = none := by
  refine if_neg fun ⟨hr, hp, hc, hn⟩ => ?_
  rcases h with hc' | hn' | hr' | hp'
  · exact Nat.not_lt.2 hc' hc
  · exact Nat.not_lt.2 hn' hn
  · exact Bool.eq_false_iff.1 hr' hr
  · exact hp' hp

end MixReads

/-- Settles O55: both commands check the geometry and answer from the same word, as the audio read-out does. -/
theorem mixReadsAnswerWords : Obligations.MixReadsAnswerWords := by
  refine ⟨fun c i s hr => ⟨fun hbad => ?_, fun hc hi => ?_⟩, fun c n s => ⟨?_, audioRead_of_unheard⟩⟩
  · exact ⟨geometryCommand_bad hr hbad, geometryCommand_bad hr hbad⟩
  · exact ⟨geometryCommand_ok hr hc hi, _, geometryCommand_ok hr hc hi, wordOfInt_sat16_toInt _⟩
  · exact audioRead_of_heard

/-! ### The bound on the words of a `RENDER` (46_mixer.md R200) -/

section Bound

variable {s : State}

/-- The magnitude of `OUT[c][n]` (R200). -/
def State.wordSize (s : State) (c n : Nat) : Nat := (readOut s.build s.out c n).toInt.natAbs

/-- Wrapping to a word never makes a number larger. -/
theorem wordOfInt_natAbs_le (k : Int) : (wordOfInt k).toInt.natAbs ≤ k.natAbs := by
  rw [wordOfInt, BitVec.toInt_ofInt, Int.bmod_def]
  omega

/-- A voice adds at most one sample of full scale into a word. -/
theorem wordOfInt_add_filterOut_le (w y : Word) :
    (wordOfInt (w.toInt + filterOut y)).toInt.natAbs ≤ w.toInt.natAbs + 2 ^ 15 := by
  obtain ⟨hlow, hhigh⟩ := filterOut_range y
  have hwrap := wordOfInt_natAbs_le (w.toInt + filterOut y)
  omega

theorem sampleVoice_wordSize_le (hi : s.Inv) (v m c n : Nat) :
    (s.sampleVoice v m).wordSize c n ≤ s.wordSize c n + 2 ^ 15 := by
  rw [sampleVoice_eq]
  show (readOut s.build (sampledOut s v m) c n).toInt.natAbs ≤ _
  unfold sampledOut
  split
  · exact Nat.le_add_right _ _
  · rw [readOut_mixAddAll hi.out]
    split
    · exact wordOfInt_add_filterOut_le _ _
    · exact Nat.le_add_right _ _

/-- A word whose sample lies outside those rendered keeps its magnitude. -/
theorem VoiceFrame.wordSize {v a b : Nat} {t : State} (h : VoiceFrame v a b s t) (hi : s.Inv) {n : Nat}
    (hn : ¬(a ≤ n ∧ n < b)) (c : Nat) : t.wordSize c n = s.wordSize c n := by
  rw [State.wordSize, h.build, (h.words hi.out).2 c n fun hin => hn hin.2, State.wordSize]

/-- A run visits each sample once, so it too adds at most one sample into a word: the first sample of the run leaves
the words of the rest alone, and the rest leaves the word of the first. -/
theorem renderRun_wordSize_le (hi : s.Inv) (v k m c n : Nat) :
    (State.renderRun v k m s).wordSize c n ≤ s.wordSize c n + 2 ^ 15 := by
  induction k generalizing m s with
  | zero => exact Nat.le_add_right _ _
  | succ k ih =>
    have hi' : (s.sampleVoice v m).Inv := sampleVoice_inv hi v m
    rw [State.renderRun]
    by_cases hm : n = m
    · have rest := renderRun_frame v k (m + 1) (s.sampleVoice v m) (Nat.le_refl _) (Nat.le_refl _)
      rw [rest.wordSize hi' (by omega)]
      exact sampleVoice_wordSize_le hi v m c n
    · have first := sampleVoice_frame s v m (Nat.le_refl _) (Nat.lt_succ_self _)
      rw [← first.wordSize hi (n := n) (by omega)]
      exact ih hi' (m + 1)

/-- The voices of a list, rendered one after the other, each add at most one sample into a word. -/
theorem renderVoices_wordSize_le (hi : s.Inv) (vs : List Nat) (k c n : Nat) :
    (vs.foldl (fun t v => State.renderRun v k 0 t) s).wordSize c n ≤ s.wordSize c n + vs.length * 2 ^ 15 := by
  induction vs generalizing s with
  | nil => exact Nat.le_add_right _ _
  | cons v vs ih =>
    have one := renderRun_wordSize_le hi v k 0 c n
    have others := ih (renderRun_inv hi v k 0)
    rw [List.foldl_cons, List.length_cons]
    omega

/-- At most `POLY` slots are in use (R21). -/
theorem slots_length_le (s : State) : s.slots.length ≤ s.poly.toNat := by
  have hnodup : s.slots.Nodup := List.nodup_range.filter _
  have hsub : s.slots ⊆ List.range s.poly.toNat := fun v hv => List.mem_range.2 ((mem_slots s v).1 hv).2
  simpa using (hnodup.subperm hsub).length_le

theorem renderBody_wordSize_le (hi : s.Inv) (ns : Word) (c n : Nat) :
    (s.renderBody ns).wordSize c n ≤ s.wordSize c n + s.poly.toNat * 2 ^ 15 :=
  calc (s.renderBody ns).wordSize c n
      ≤ s.wordSize c n + s.slots.length * 2 ^ 15 :=
        renderVoices_wordSize_le (loadEnvParams_inv hi) s.slots ns.toNat c n
    _ ≤ s.wordSize c n + s.poly.toNat * 2 ^ 15 :=
        Nat.add_le_add_left (Nat.mul_le_mul_right _ (slots_length_le s)) _

end Bound

/-- Settles O56: the body step adds at most `POLY` samples into each word of the geometry, which it keeps and finds
cleared. -/
theorem renderedWordsAreBounded : Obligations.RenderedWordsAreBounded := by
  intro s t ns ts hi hturn hphase hclear hstep c n hc hn
  rw [step_body hturn hphase] at hstep
  cases hstep
  have hnumCh : (s.renderBody ns).numCh = s.numCh := by rw [renderBody_rest]; rfl
  have hnumSamp : (s.renderBody ns).numSamp = s.numSamp := by rw [renderBody_rest]; rfl
  have hzero : s.wordSize c n = 0 := by
    rw [State.wordSize, hclear c n (hnumCh ▸ hc) (hnumSamp ▸ hn)]
    rfl
  calc (s.renderBody ns).wordSize c n
      ≤ s.wordSize c n + s.poly.toNat * 2 ^ 15 := renderBody_wordSize_le hi ns c n
    _ = s.poly.toNat * 2 ^ 15 := by rw [hzero, Nat.zero_add]

end Sys2Proof.Machine

/-! PROOFS of the families 48_engine_system.md, 60_exceptions.md and 70_reset_and_hazards.md: `NOP` (R220), `PREPARE`
(R221), the three steps of a `RENDER` (R222 to R225), `WRCFG` (R226), `SETGLOBAL` (R227); fault entry (R252) and the way
out of a halt (R254); the reset input (R280). -/

namespace Sys2Proof.Machine

/-! ### `NOP` (48_engine_system.md R220) -/

section Nop

variable {s : State} {w : Command}

/-- All three fields of a first word that is zero are zero (R90). -/
theorem fields_of_w0_zero (h : w.w0 = 0) : w.opcode = 0 ∧ w.sel = 0 ∧ w.arg16 = 0 := by
  rw [Command.opcode, Command.sel, Command.arg16, h]
  decide

theorem decode_eq_nop_iff : decode w = some .nop ↔ w.w0 = 0 := by
  refine ⟨fun h => (encode_w0_of_decode h).symm, fun h => ?_⟩
  obtain ⟨hop, hsel, harg⟩ := fields_of_w0_zero h
  rw [decode, hop]
  exact if_pos ⟨hsel, harg⟩

theorem exec_nop (h : s.accepting) : exec .nop s = .next s := renderCommand_ok h nofun

/-- Settles O16: format Z leaves the one word, and the effect is the state itself. -/
theorem nopDoesNothing : Obligations.NopDoesNothing := ⟨fun _ => decode_eq_nop_iff, fun _ => exec_nop⟩

end Nop

/-! ### `PREPARE` (48_engine_system.md R221) -/

section Prepare

variable {s : State} {fs mb poly : Word}

theorem exec_prepare_srate (h : s.accepting) :
    exec (.prepare 0 mb poly) s = .next (s.raise .cfgSrate (encode (.prepare 0 mb poly)).w0) := by
  show execPrepare 0 mb poly s = _
  rw [execPrepare, if_pos rfl]
  exact renderCommand_error h nofun

theorem exec_prepare_poly (h : s.accepting) (hfs : fs ≠ 0) (hpoly : poly = 0 ∨ s.build.maxPoly < poly.toNat) :
    exec (.prepare fs mb poly) s = .next (s.raise .cfgPoly (encode (.prepare fs mb poly)).w0) := by
  show execPrepare fs mb poly s = _
  rw [execPrepare, if_neg hfs, if_pos hpoly]
  exact renderCommand_error h nofun

theorem exec_prepare_block (h : s.accepting) (hfs : fs ≠ 0) (hpoly : ¬(poly = 0 ∨ s.build.maxPoly < poly.toNat))
    (hmb : mb = 0 ∨ s.build.maxBlock < mb.toNat) :
    exec (.prepare fs mb poly) s = .next (s.raise .cfgBlock (encode (.prepare fs mb poly)).w0) := by
  show execPrepare fs mb poly s = _
  rw [execPrepare, if_neg hfs, if_neg hpoly, if_pos hmb]
  exact renderCommand_error h nofun

theorem exec_prepare_ok (h : s.accepting) (hfs : fs ≠ 0) (hpoly : ¬(poly = 0 ∨ s.build.maxPoly < poly.toNat))
    (hmb : ¬(mb = 0 ∨ s.build.maxBlock < mb.toNat)) :
    exec (.prepare fs mb poly) s = .next (s.prepare fs mb poly) := by
  show execPrepare fs mb poly s = _
  rw [execPrepare, if_neg hfs, if_neg hpoly, if_neg hmb]
  exact renderCommand_ok h nofun

/-- A clamped word is in range, so a second clamp keeps it (R10). -/
theorem clamp31_clamp31 (w : Word) : clamp31 (clamp31 w) = clamp31 w := by
  apply BitVec.eq_of_toNat_eq
  rw [clamp31_toNat, clamp31_toNat, Nat.min_assoc, Nat.min_self]

/-- `MIX_ACTIVE` is the value at which the mix ramp starts. -/
theorem prepare_mixActive (s : State) (fs mb poly : Word) :
    (s.prepare fs mb poly).mixActive = clamp31 s.store.mix :=
  clamp31_clamp31 s.store.mix

theorem prepareGlobalRamp_freshAt (s : State) (q : Ramp) (fs x : Word) :
    (s.prepareGlobalRamp q fs x).FreshAt x fs s.cfgRampT s.rampMode :=
  Ramp.reset_freshAt { q with tgt := x } fs s.cfgRampT s.rampMode

/-- A ramp of a voice starts at zero. -/
theorem zeroed_freshAt (q : Ramp) (fs time : Word) (mode : RampMode) :
    (Ramp.reset { q with tgt := 0 } fs time mode).FreshAt 0 fs time mode :=
  Ramp.reset_freshAt { q with tgt := 0 } fs time mode

/-- Settles O17: the three checks decide the case, and the effect is `State.prepare`, field by field. -/
theorem prepareConfigures : Obligations.PrepareConfigures := by
  refine fun fs mb poly s h => ⟨?_, fun hfs hpoly => exec_prepare_poly h hfs hpoly, fun hfs hpoly hle hmb =>
    exec_prepare_block h hfs (not_or.2 ⟨hpoly, Nat.not_lt.2 hle⟩) hmb, fun hfs hpoly hle hmb hmbLe => ?_⟩
  · rintro rfl
    exact exec_prepare_srate h
  have hexec : exec (.prepare fs mb poly) s = .next (s.prepare fs mb poly) :=
    exec_prepare_ok h hfs (not_or.2 ⟨hpoly, Nat.not_lt.2 hle⟩) (not_or.2 ⟨hmb, Nat.not_lt.2 hmbLe⟩)
  have hmix := prepare_mixActive s fs mb poly
  refine ⟨s.prepare fs mb poly, hexec, rfl, prepare_voices_length fs mb poly, fun v hv => ?_,
    prepareGlobalRamp_freshAt s s.grCutoff fs _, ?_, prepareGlobalRamp_freshAt s s.grDecayRamp fs _, ?_,
    filterCoef_toNat s.build s.store.cutoff fs, envSnapshot_toNat s.store fs⟩
  · rw [prepare_voice hv]
    exact ⟨rfl, rfl, rfl, rfl, rfl, rfl, rfl, zeroed_freshAt _ _ _ _, zeroed_freshAt _ _ _ _, zeroed_freshAt _ _ _ _⟩
  · rw [hmix]
    exact prepareGlobalRamp_freshAt s s.grMix fs _
  · rw [hmix]
    exact clamp31_toNat s.store.mix

end Prepare

/-! ### `RENDER` (48_engine_system.md R222 to R225) -/

section Render

variable {s : State} {nch ns : Word} {ts : List Turn}

theorem exec_render_bad (hr : s.ready) (h : s.renderArgsOk nch ns = false) :
    exec (.render nch ns) s = .next (s.raise .renderArgs (encode (.render nch ns)).w0) := by
  show execRender nch ns s = _
  rw [execRender, h]
  exact renderCommand_error hr.1 fun _ => hr.2

theorem exec_render_ok (hr : s.ready) (h : s.renderArgsOk nch ns = true) :
    exec (.render nch ns) s = .next { s.renderBegin nch ns with phase := .body ns } := by
  show execRender nch ns s = _
  rw [execRender, h]
  exact renderCommand_ok hr.1 fun _ => hr.2

/-- Settles O18: step begin is the clear, then the events of the queue as it stood, on the emptied queue. -/
theorem renderBegins : Obligations.RenderBegins := by
  refine fun nch ns s hr => ⟨fun hbad => exec_render_bad hr ?_, fun hch hns =>
    ⟨_, (s.mixClear nch ns).evqFlush, exec_render_ok hr (renderArgsOk_iff.2 ⟨hch, hns⟩), rfl, fun c n => ?_, rfl⟩⟩
  · rw [Bool.eq_false_iff, Ne, renderArgsOk_iff]
    omega
  · exact readOut_clearOut s.out nch.toNat ns.toNat c n

/-- With `POLY` slots built, the slots in use are those below `POLY` (R21). -/
theorem slots_eq_range (h : s.poly.toNat ≤ s.voices.length) : s.slots = List.range s.poly.toNat := by
  refine List.Perm.eq_of_pairwise' (slots_sorted s) List.pairwise_lt_range ?_
  have hnodup : s.slots.Nodup := List.nodup_range.filter _
  rw [List.perm_ext_iff_of_nodup hnodup List.nodup_range]
  intro v
  rw [mem_slots, List.mem_range]
  omega

/-- The body step of a block whose slots in use are built (R224). -/
theorem step_body_range (h : s.turns = .render :: ts) (hp : s.phase = .body ns)
    (hbuilt : s.poly.toNat ≤ s.voices.length) :
    step s = .next { (List.range s.poly.toNat).foldl (fun u v => State.renderRun v ns.toNat 0 u) s.loadEnvParams with
      phase := .finish ns, turns := ts } := by
  rw [step_body h hp, State.endTurn, (bodyStep_renderWrites s ns).turns, h, List.tail_cons, State.bodyStep,
    State.renderBody, slots_eq_range hbuilt]

/-- The end step changes the global ramps, the derived registers and what the audio sink knows (R225). -/
theorem finishStep_rest (s : State) (ns : Word) :
    s.finishStep ns = { s with
      grCutoff := Ramp.ticks ns.toNat (s.grCutoff.setTarget s.store.cutoff)
      grMix := Ramp.ticks ns.toNat (s.grMix.setTarget (clamp31 s.store.mix))
      grDecayRamp := Ramp.ticks ns.toNat (s.grDecayRamp.setTarget s.store.decayRamp)
      filtA := (s.finishStep ns).filtA
      mixActive := (s.finishStep ns).mixActive
      decayRampActive := (s.finishStep ns).grDecayRamp.cur
      phase := .idle
      rendered := (s.finishStep ns).rendered } := by
  simp only [State.finishStep, State.renderEnd, State.refreshDerived, State.loadFilterCoef, State.advanceGlobals]

/-- The end step, after which the turn is over. -/
theorem step_finish_turns (h : s.turns = .render :: ts) (hp : s.phase = .finish ns) :
    step s = .next { s.finishStep ns with turns := ts } := by
  rw [step_finish h hp, State.endTurn, (finishStep_renderWrites s ns).turns, h, List.tail_cons]

/-- Settles O19: the body step runs over `State.slots`, which are the voices below `POLY`; the end step refreshes the
derived registers from the ramps it has ticked. -/
theorem renderBodyAndEndSteps : Obligations.RenderBodyAndEndSteps := by
  refine fun s ns ts h => ⟨fun hp hbuilt => ?_, fun hp => ?_⟩
  · obtain ⟨halen, hdlen, hsus, hrlen⟩ := envSnapshot_toNat s.store s.srate
    exact ⟨envSnapshot s.store s.srate, halen, hdlen, hsus, hrlen, step_body_range h hp hbuilt⟩
  · exact ⟨{ s.finishStep ns with turns := ts }, clamp31 s.store.mix, step_finish_turns h hp,
      clamp31_toNat s.store.mix, congrArg (fun t : State => { t with turns := ts }) (finishStep_rest s ns),
      filterCoef_toNat s.build (s.finishStep ns).grCutoff.cur s.srate, clamp31_toNat (s.finishStep ns).grMix.cur⟩

end Render

/-! ### `WRCFG` (48_engine_system.md R226) -/

section Wrcfg

variable {s : State} {i : Half}

theorem exec_wrcfg_bad (h : s.accepting) (hi : 3 < i.toNat) (x : Word) :
    exec (.wrcfg i x) s = .next (s.raise .badIndex (encode (.wrcfg i x)).w0) := by
  obtain ⟨k, hk⟩ : ∃ k, i.toNat = k + 4 := Nat.exists_eq_add_of_le' hi
  show execWrcfg i x s = _
  rw [execWrcfg, hk]
  exact renderCommand_error h nofun

theorem exec_wrcfg_ctrl (h : s.accepting) (x : Word) :
    exec (.wrcfg 0 x) s = .next { s with cfgCtrl := x.setWidth 4 } :=
  renderCommand_ok h nofun

theorem exec_wrcfg_rampTime (h : s.accepting) (x : Word) : exec (.wrcfg 1 x) s = .next { s with cfgRampT := x } :=
  renderCommand_ok h nofun

theorem exec_wrcfg_ampScale (h : s.accepting) (x : Word) :
    exec (.wrcfg 2 x) s = .next { s with cfgAmpScale := clamp15 x } :=
  renderCommand_ok h nofun

theorem exec_wrcfg_sticky (h : s.accepting) (x : Word) :
    exec (.wrcfg 3 x) s = .next { s with status := s.status.clearSticky x } :=
  renderCommand_ok h nofun

/-- Settles O21, index by index. -/
theorem wrcfgWrites : Obligations.WrcfgWrites := by
  refine fun i x s h => ⟨fun hi => exec_wrcfg_bad h hi x, ?_, ?_, ?_, ?_⟩
  · rintro rfl
    exact ⟨x.setWidth 4, exec_wrcfg_ctrl h x, BitVec.toNat_setWidth 4 x⟩
  · rintro rfl
    exact exec_wrcfg_rampTime h x
  · rintro rfl
    exact ⟨clamp15 x, exec_wrcfg_ampScale h x, clamp15_toNat x⟩
  · rintro rfl
    exact exec_wrcfg_sticky h x

end Wrcfg

/-! ### `SETGLOBAL` (48_engine_system.md R227) -/

section Setglobal

variable {s : State} {i : Half}

theorem exec_setglobal_word (hp : s.port = .control) (hi : i.toNat ≤ 6) (x : Word) :
    exec (.setglobal i x) s = .next { s with store := s.store.set i.toNat x } :=
  (execSetglobal_control hp i x).trans (by rw [if_neg (Nat.not_lt.2 hi)])

theorem exec_setglobal_bad (hp : s.port = .control) (hi : 6 < i.toNat) (x : Word) :
    exec (.setglobal i x) s = .next s.setCtlIllegal :=
  (execSetglobal_control hp i x).trans (by rw [if_pos hi])

/-- Settles O24; what the render port does with it is the second half of `portRightsDeny`. -/
theorem setglobalWritesOneWord : Obligations.SetglobalWritesOneWord := fun i x s =>
  ⟨fun hp hi => ⟨_, exec_setglobal_word hp hi x, rfl, store_set_words s.store hi x⟩,
    fun hp hi => exec_setglobal_bad hp hi x, fun h => portRightsDeny.2 i x s h⟩

end Setglobal

/-! ### Fault entry (60_exceptions.md R252, R255) -/

/-- `t` is halted exactly if `s` is. -/
def State.SameHalt (s t : State) : Prop := t.status.halted = s.status.halted

/-- What the render port leaves of a command whose first word is `w0`: the halt as it was, or a fault entered. -/
def State.RunsOrFaults (s : State) (w0 : Word) (t : State) : Prop := s.SameHalt t ∨ ∃ c, t = s.raise c w0

section FaultEntry

variable {s t : State} {i : Instr} {e : Effect}

/-! #### No operation halts -/

theorem onHolder_sameHalt (s : State) (id : Half) (f : Voice → Voice) : s.SameHalt (s.onHolder id f) := by
  unfold State.onHolder
  split <;> rfl

theorem dispatchNoteOn_sameHalt (s : State) (id : Half) (f p tb : Word) :
    s.SameHalt (s.dispatchNoteOn id f p tb) := by
  unfold State.dispatchNoteOn
  split
  · rfl
  split
  · rfl
  split <;> rfl

theorem dispatch_sameHalt (s : State) (e : Event) : s.SameHalt (s.dispatch e) := by
  unfold State.dispatch
  cases e.kind with
  | noteOn => exact dispatchNoteOn_sameHalt s e.id e.a e.b e.c
  | noteOff | pressure | pitch | timbre => exact onHolder_sameHalt s e.id _

theorem renderBegin_sameHalt (s : State) (nch ns : Word) : s.SameHalt (s.renderBegin nch ns) :=
  List.foldlRecOn (motive := s.SameHalt) s.evq State.dispatch rfl fun t ht e _ => (dispatch_sameHalt t e).trans ht

theorem renderRun_sameHalt (s : State) (v k n : Nat) : s.SameHalt (State.renderRun v k n s) := by
  rw [(renderRun_frame v k n s (Nat.le_refl n) (Nat.le_refl (n + k))).rest]
  rfl

theorem setRamp_sameHalt (s : State) (q : RampRef) (x : Ramp) : s.SameHalt (s.setRamp q x) := by
  cases q <;> rfl

/-- Nothing that a word of the control port may change is the halt (R253 (c)). -/
theorem State.ControlWrites.sameHalt (h : s.ControlWrites t) : s.SameHalt t := by
  rw [h.rest]
  rfl

/-! #### Commands -/

/-- The decode order of R94 adds one raise to an effect that does not halt. -/
theorem onRender_runsOrFaults (he : EffectHas s.SameHalt e) : s.RunsOrFaults (encode i).w0 (s.onRender i e) := by
  rcases onRender_cases i s e with ⟨-, h⟩ | ⟨-, c, h⟩ | ⟨-, -, h⟩
  · rw [h]; exact .inl rfl
  · exact .inr ⟨c, h⟩
  · exact .inl (he _ h)

theorem renderCommand_runsOrFaults (hp : s.port = .render) (he : EffectHas s.SameHalt e) :
    NextHas (s.RunsOrFaults (encode i).w0) (renderCommand i s e) := by
  rw [renderCommand, hp]
  exact nextHas_next (onRender_runsOrFaults he)

/-- A command with one check in front of its effect. -/
theorem checked_runsOrFaults {p : Prop} [Decidable p] {c : FaultCause} (hp : s.port = .render) (h : s.SameHalt t) :
    NextHas (s.RunsOrFaults (encode i).w0) (renderCommand i s (if p then .error c else .ok t)) :=
  renderCommand_runsOrFaults hp (effectHas_check fun _ => effectHas_ok h)

/-- A command on the ramp its selector names (R161). -/
theorem selected_runsOrFaults {q : Option RampRef} {c : FaultCause} {f : RampRef → Effect} (hp : s.port = .render)
    (h : ∀ q, EffectHas s.SameHalt (f q)) :
    NextHas (s.RunsOrFaults (encode i).w0) (renderCommand i s (match q with
      | none => .error c
      | some q => f q)) :=
  renderCommand_runsOrFaults hp (effectHas_select h)

theorem exec_event_runsOrFaults (hp : s.port = .render) (e : Event) :
    NextHas (s.RunsOrFaults (encode e.toInstr).w0) (exec e.toInstr s) := by
  rw [exec_event_render hp]
  exact nextHas_next (onRender_runsOrFaults (effectHas_ok (dispatch_sameHalt s e)))

theorem execWrcfg_runsOrFaults (hp : s.port = .render) (k : Half) (x : Word) :
    NextHas (s.RunsOrFaults (encode (.wrcfg k x)).w0) (execWrcfg k x s) := by
  refine renderCommand_runsOrFaults hp ?_
  split
  iterate 4 exact effectHas_ok rfl
  exact effectHas_error

theorem exec_rdreg_runsOrFaults (hp : s.port = .render) (sel : Octet) (reg : Half) :
    NextHas (s.RunsOrFaults (encode (.rdreg sel reg)).w0) (exec (.rdreg sel reg) s) := by
  cases hr : s.readReg sel reg with
  | some w =>
    rw [exec_rdreg_some hp hr]
    exact nextHas_next (.inl rfl)
  | none =>
    rw [exec_rdreg_none hp hr]
    refine nextHas_next ?_
    split
    · exact .inl rfl
    · exact .inr ⟨_, rfl⟩

theorem exec_setglobal_runsOrFaults (hp : s.port = .render) (k : Half) (x : Word) :
    NextHas (s.RunsOrFaults (encode (.setglobal k x)).w0) (exec (.setglobal k x) s) := by
  rw [exec_setglobal_render hp, State.illegalOnRender]
  refine nextHas_next ?_
  split
  · exact .inl rfl
  · exact .inr ⟨_, rfl⟩

/-- Every command of the render port, by the shape of its meaning. -/
theorem exec_runsOrFaults (hp : s.port = .render) (i : Instr) :
    NextHas (s.RunsOrFaults (encode i).w0) (exec i s) := by
  cases i with
  | evNoteon id f p tb => exact exec_event_runsOrFaults hp ⟨.noteOn, id, f, p, tb⟩
  | evNoteoff id a b c => exact exec_event_runsOrFaults hp ⟨.noteOff, id, a, b, c⟩
  | evPressure id x b c => exact exec_event_runsOrFaults hp ⟨.pressure, id, x, b, c⟩
  | evPitch id f b c => exact exec_event_runsOrFaults hp ⟨.pitch, id, f, b, c⟩
  | evTimbre id x b c => exact exec_event_runsOrFaults hp ⟨.timbre, id, x, b, c⟩
  | wrcfg k x => exact execWrcfg_runsOrFaults hp k x
  | rdreg sel reg => exact exec_rdreg_runsOrFaults hp sel reg
  | setglobal k x => exact exec_setglobal_runsOrFaults hp k x
  | rmpSettarget | rmpNext => exact selected_runsOrFaults hp fun q => effectHas_ok (setRamp_sameHalt s q _)
  | rmpReset =>
    exact selected_runsOrFaults hp fun q => effectHas_check fun _ => effectHas_ok (setRamp_sameHalt s q _)
  | rmpGetcur => exact selected_runsOrFaults hp fun _ => effectHas_ok rfl
  | nop | envLoadp => exact renderCommand_runsOrFaults hp (effectHas_ok rfl)
  | prepare =>
    exact renderCommand_runsOrFaults hp (effectHas_check fun _ => effectHas_check fun _ => effectHas_check fun _ =>
      effectHas_ok rfl)
  | oscSetfreq =>
    exact renderCommand_runsOrFaults hp (effectHas_check fun _ => effectHas_check fun _ => effectHas_ok rfl)
  | vRender =>
    exact renderCommand_runsOrFaults hp (effectHas_check fun _ => effectHas_check fun _ =>
      effectHas_ok (renderRun_sameHalt s _ _ _))
  | render nch ns => exact checked_runsOrFaults hp (renderBegin_sameHalt s nch ns)
  | fltCoef | mixClear | vAssign | wtRead | envIsactive | mixRead | mixReadsat | mixAcc | oscReset | envNoteon
  | envNoteoff | fltClear | vPressure | vPitch | vTimbre | vRelease | oscNext | envNext | fltNext =>
    exact checked_runsOrFaults hp rfl

/-- Settles O9: no word of the control port changes the halt, and on the render port only `State.raise` sets it. -/
theorem faultEntryIsExact : Obligations.FaultEntryIsExact := by
  intro i s t hrun hexec hhalt
  have changed : ¬s.SameHalt t := fun h => nomatch hhalt.symm.trans (h.trans hrun)
  cases hp : s.port with
  | control => exact absurd (exec_controlWrites hp hexec).sameHalt changed
  | render =>
    obtain ⟨c, hc⟩ := (exec_runsOrFaults hp i t hexec).resolve_left changed
    obtain ⟨hne, hle⟩ := code_pos c
    have hpos : 1 ≤ c.code.toNat := Nat.pos_of_ne_zero fun h => hne (BitVec.eq_of_toNat_eq h)
    exact ⟨rfl, hhalt, c.code, hpos, hle, hc⟩

end FaultEntry

/-! ### Reset (70_reset_and_hazards.md R280) and the way out of a halt (60_exceptions.md R254) -/

section Reset

variable {s t : State} {ts : List Turn}

theorem step_reset (h : s.turns = .reset :: ts) : step s = .next s.hardwareReset.endTurn := by
  rw [step, h]

/-- Settles O7: the step is `State.hardwareReset`, and its turn is over. -/
theorem resetStep : Obligations.ResetStep := by
  intro s ts h
  have turns : s.hardwareReset.turns.tail = ts := congrArg List.tail h
  rw [step_reset h, State.endTurn, turns]
  rfl

/-- Neither the body step nor the end step writes a fault register (R224, R225). -/
theorem bodyStep_staysHalted (h : s.status.halted = true) (ns : Word) : s.StaysHalted (s.bodyStep ns) := by
  rw [bodyStep_rest]
  exact ⟨h, rfl, rfl⟩

theorem finishStep_staysHalted (h : s.status.halted = true) (ns : Word) : s.StaysHalted (s.finishStep ns) := by
  rw [finishStep_rest]
  exact ⟨h, rfl, rfl⟩

/-- A step that is no reset keeps a halt and its cause, in any state. -/
theorem step_staysHalted_of_head (h : s.status.halted = true) (hr : s.turns.head? ≠ some .reset)
    (hstep : step s = .next t) : s.StaysHalted t := by
  cases step_to hstep with
  | rest _ => exact .refl h
  | reset ts ht => exact absurd (by rw [ht, List.head?_cons]) hr
  | body ns _ _ _ => exact { bodyStep_staysHalted h ns with }
  | finish ns _ _ _ => exact { finishStep_staysHalted h ns with }
  | noWord _ _ => exact ⟨h, rfl, rfl⟩
  | word w u _ _ hu => exact { retire_staysHalted (execWord_staysHalted h w u hu) with }

/-- Settles O14: reset clears the three registers, every other step is `step_staysHalted_of_head`. -/
theorem onlyResetLeavesHalt : Obligations.OnlyResetLeavesHalt := by
  refine fun s t h hstep => ⟨fun hr => ?_, fun hr => ?_⟩
  · obtain ⟨hhalt, hcause, hw0⟩ := step_staysHalted_of_head h hr hstep
    exact ⟨hhalt, hcause, hw0⟩
  · obtain ⟨ts, ht⟩ := List.head?_eq_some_iff.1 hr
    cases (step_reset ht).symm.trans hstep
    exact ⟨rfl, rfl, rfl⟩

end Reset

end Sys2Proof.Machine
